-- ==== Sys2Proof/Word.lean ====
section
/-! DEFINITION. The plain value types of the I2C-slave transaction handler (spec/00_scope.md R8, R9).
Every value of the spec is unsigned. Positions, capacities and lengths are counts and are held as `Nat`; their widths IDX_W
and LEN_W are parameters (Config.lean). -/

namespace Sys2Proof

/-- A byte of host memory, a received or transmitted byte, or a status value: 8 bits (R8). -/
abbrev Byte := BitVec 8

/-- A 1-bit field of an encoded item: OP of a command, OK of an answer (30_encoding.md R70, R72). -/
abbrev Bit := BitVec 1

/-- TIMEOUT_T, the type of the timeout budget (R8, 92_eei_decisions.md D7: OPEN). "An integral bound" that the handler never
inspects: every integer is allowed. DESIGN CHOICE, log entry 2; safe, since no rule depends on the value. -/
abbrev Timeout := Int

/-- A reference to a host byte region: the address of its first byte in host memory (20_memory.md R60: "each a base and a
capacity"). DESIGN CHOICE, log entry 5. -/
abbrev Ref := Nat

/-- A boolean as a bit: `true` is 1 and `false` is 0 (R9). -/
def bitOfBool (b : Bool) : Bit := if b then 1#1 else 0#1

/-- A bit as a boolean (R9). -/
def boolOfBit (b : Bit) : Bool := b == 1#1

end Sys2Proof
end

