-- ==== Sys2Proof/Config.lean ====
section
/-! DEFINITION. The parameters a model of the handler takes (spec/00_scope.md R8; 92_eei_decisions.md D5, D6).
They are plain data that State carries and no step writes, so a statement over every state holds for every IDX_W and LEN_W. -/

namespace Sys2Proof

/-- The OPEN widths of R8. -/
structure Params where
  /-- IDX_W: POS, CAP and EFF, every capacity and every count are in 0 .. 2^IDX_W - 1. -/
  idxW : Nat
  /-- LEN_W: the declared length PROVIDE answers is in 0 .. 2^LEN_W - 1. -/
  lenW : Nat
deriving DecidableEq, Repr

/-- How many values an IDX_W-bit register can hold. -/
def Params.idxBound (p : Params) : Nat := 2 ^ p.idxW

/-- How many values a LEN_W-bit length can take. -/
def Params.lenBound (p : Params) : Nat := 2 ^ p.lenW

/-- The parameters of 95_test_vectors.md ("IDX_W = 8 and LEN_W = 16, where a vector depends on a width"). DESIGN CHOICE for
the state after reset, log entry 2; no statement rests on these values. -/
def Params.ofTestVectors : Params := { idxW := 8, lenW := 16 }

end Sys2Proof
end

