-- ==== Sys2Proof/Syntax.lean ====
section
/-! DEFINITION. The items the handler decodes (spec/30_encoding.md): the three encoded formats CMD, STATUS8 and EVT, and the
decoded instructions, one constructor per row of spec/opcode_table.json. R3: this set of commands, status events and
interface events plays the part of an instruction set. -/

namespace Sys2Proof

/-- The six events a status byte decodes to (30_encoding.md R73). -/
inductive StatusEvent where
  | addrMatchWrite | dataRxAck | dataRxNack | addrMatchRead | dataTxAck | unexpected
deriving DecidableEq, Repr

/-- Format CMD, a command as the host issues it (R70). BUF and CAPACITY are present in HANDLE_RECEIVE only. -/
structure CmdWord where
  /-- OP, bit 0: 0 = HANDLE_RECEIVE, 1 = HANDLE_TRANSMIT. -/
  op : Bit
  /-- BUF, the reference of the receive buffer. -/
  buf : Ref
  /-- CAPACITY, the number of bytes in the receive buffer. -/
  capacity : Nat
  /-- TIMEOUT, the timeout budget. -/
  timeout : Timeout
deriving DecidableEq, Repr

/-- The answer of an interface event, with the fields of R72's answer column. -/
inductive Answer where
  /-- READ_STATUS: S[7:0]. -/
  | status (s : Byte)
  /-- RECEIVE_BYTE: OK and B[7:0]; B is meaningful only when OK = 1. -/
  | byte (ok : Bit) (b : Byte)
  /-- TRANSMIT_BYTE: OK. -/
  | ok (ok : Bit)
  /-- RELEASE_BUS and ON_DONE: completion only. -/
  | done
  /-- PROVIDE: the bytes of the source region SRC, its capacity C and the declared length L. -/
  | source (src : List Byte) (c : Nat) (len : Nat)
  /-- COMPLETE: no answer. In the order of what arrives it marks where COMPLETE lies (log entry 1). -/
  | nothing
deriving DecidableEq, Repr

/-- The three formats (R70 to R72). -/
inductive Format where
  | cmd | status8 | evt
deriving DecidableEq, Repr

/-- An encoded item. Its format is told by where it occurs (R79), so it is part of the item. -/
inductive Packet where
  /-- A command from the host. -/
  | cmd (w : CmdWord)
  /-- A status answer to READ_STATUS. -/
  | status8 (s : Byte)
  /-- An interface event, CODE[3:0], with its answer. -/
  | evt (code : BitVec 4) (ans : Answer)
deriving DecidableEq, Repr

/-- One constructor per row of spec/opcode_table.json. The arguments of an interface event (ACK, TMO, V, BUF, COUNT, RESULT)
are no operands here: the handler computes them from its registers when it emits the event (R76, R210), and the trace
shows them. What an event's constructor carries is the answer, which comes from outside. -/
inductive Instr where
  /-- HANDLE_RECEIVE (41_receive.md R130). -/
  | handleReceive (buf : Ref) (capacity : Nat) (timeout : Timeout)
  /-- HANDLE_TRANSMIT (42_transmit.md R170). -/
  | handleTransmit (timeout : Timeout)
  /-- ADDR_MATCH_WRITE, S = 0x60 (40_status_decode.md R104). -/
  | addrMatchWrite
  /-- DATA_RX_ACK, S = 0x80 (R105). -/
  | dataRxAck
  /-- DATA_RX_NACK, S = 0x88 (R106). -/
  | dataRxNack
  /-- ADDR_MATCH_READ, S = 0xA8 (R107). -/
  | addrMatchRead
  /-- DATA_TX_ACK, S = 0xB8 (R108). -/
  | dataTxAck
  /-- UNEXPECTED, any other S (R110). -/
  | unexpected (s : Byte)
  /-- READ_STATUS, answered S (43_interface.md R211). -/
  | readStatus (s : Byte)
  /-- RECEIVE_BYTE, answered `some b` (OK = 1) or `none` (OK = 0) (R212, R11). -/
  | receiveByte (answer : Option Byte)
  /-- TRANSMIT_BYTE, answered OK (R213). -/
  | transmitByte (ok : Bool)
  /-- RELEASE_BUS (R214). -/
  | releaseBus
  /-- ON_DONE (R215). -/
  | onDone
  /-- PROVIDE, answered SRC, C, L (R216). -/
  | provide (src : List Byte) (c : Nat) (len : Nat)
  /-- COMPLETE (R217). -/
  | complete
deriving DecidableEq, Repr

/-- The format of an instruction's row in the opcode table. -/
def Instr.format : Instr → Format
  | .handleReceive _ _ _ => .cmd
  | .handleTransmit _ => .cmd
  | .addrMatchWrite => .status8
  | .dataRxAck => .status8
  | .dataRxNack => .status8
  | .addrMatchRead => .status8
  | .dataTxAck => .status8
  | .unexpected _ => .status8
  | .readStatus _ => .evt
  | .receiveByte _ => .evt
  | .transmitByte _ => .evt
  | .releaseBus => .evt
  | .onDone => .evt
  | .provide _ _ _ => .evt
  | .complete => .evt

/-- The format of an encoded item. -/
def Packet.format : Packet → Format
  | .cmd _ => .cmd
  | .status8 _ => .status8
  | .evt _ _ => .evt

end Sys2Proof
end

