-- ==== Sys2Proof/Machine/State.lean ====
section
/-! DEFINITION. The state of the machine: the handler's nine registers (spec/10_state.md R21), the state outside it that the
rules name (R35 to R38), and the model's own fields (the inputs still to arrive, the parameters, where the present
invocation's events start). Plain data throughout. -/

namespace Sys2Proof.Machine

/-- The phases of R23: each names a phase body, but IDLE, which waits for a command. -/
inductive Phase where
  | idle | rxCheck | rxXfer | rxVerify | txCheck | txProvide | txXfer | txVerify | finRelease | finDone | complete
deriving DecidableEq, Repr

/-- KIND's two values (R25): 0 is `receive`, 1 is `transmit`. -/
inductive Kind where
  | receive | transmit
deriving DecidableEq, Repr

/-- Host memory: (address, byte) pairs, addresses strictly rising. An address that is not listed has no value (log entry 5). -/
abbrev Memory := List Host.Cell

/-- An interface event as it stands in the trace (R38): its arguments, then its answer (30_encoding.md R72). -/
inductive Event where
  /-- READ_STATUS and S. -/
  | readStatus (s : Byte)
  /-- RECEIVE_BYTE's ACK and TMO, and `some B` or `none`. -/
  | receiveByte (ack : Bool) (tmo : Timeout) (answer : Option Byte)
  /-- TRANSMIT_BYTE's V, ACK and TMO, and OK. -/
  | transmitByte (v : Byte) (ack : Bool) (tmo : Timeout) (ok : Bool)
  /-- RELEASE_BUS. -/
  | releaseBus
  /-- ON_DONE's BUF and COUNT. -/
  | onDone (buf : Ref) (count : Nat)
  /-- PROVIDE and SRC, C, L. -/
  | provide (src : List Byte) (c : Nat) (len : Nat)
  /-- COMPLETE's RESULT. -/
  | complete (result : Bool)
deriving DecidableEq, Repr

/-- What reaches the handler from outside, in the order it arrives (10_state.md R20; log entry 1). -/
inductive Input where
  /-- The host issues a command (R130, R170). -/
  | command (w : CmdWord)
  /-- The agent that is asked answers the outstanding event (R210, R219, R220). -/
  | answer (a : Answer)
  /-- Reset (70_reset_and_hazards.md R270, R271). -/
  | reset
  /-- The host writes a byte of its own memory; it may do so only while no invocation runs (20_memory.md R64). -/
  | hostWrite (addr : Nat) (v : Byte)
deriving DecidableEq, Repr

/-- Why a step has no next state. -/
inductive Fault where
  /-- Raised by every step and every instruction that finds PHASE holding a reserved code 0xB to 0xF: PHASE_RESERVED (30_encoding.md R78, 60_exceptions.md
  R259). Safe: no reachable state holds one. -/
  | phaseReserved
  /-- Raised by an instruction that reads a register holding no value (93_implementation_defined.md U6: "a read of `none` would
  be a `fault`, but no rule does one"). Safe: no reachable state meets it (10_state.md R34). -/
  | registerNone
  /-- Raised by an accepted data byte at RX_VERIFY when POS is not below CAP, where an access has no behaviour (20_memory.md R57).
  Safe: no reachable state meets it. -/
  | rxbufOutOfBounds
  /-- Raised by TRANSMIT_BYTE when TXSRC holds no byte at POS (R57). Safe: no reachable state meets it. -/
  | txsrcOutOfBounds
  /-- Raised by a step that waits for an answer when nothing more arrives: the handler has no step (60_exceptions.md R259, R260,
  "stuck"). Safe. -/
  | stuck
  /-- Raised by a step at IDLE when nothing more arrives: the run has ended (R260). No failure of the handler. Safe. -/
  | runEnded
deriving DecidableEq, Repr

/-- Why an item has no meaning where it stands. -/
inductive Refusal where
  /-- The arm of an instruction that has no meaning yet. Safe. -/
  | notModelled (mnemonic : String)
  /-- Raised by an interface event at a phase that does not emit it: such a trace "is not a trace of this handler" (30_encoding.md R78,
  10_state.md R23). Safe: no step runs one. -/
  | eventNotEmitted
  /-- Raised by a status event at a phase that reads no status: dispatch is defined at four phases only (40_status_decode.md R100, R101).
  Safe: no step runs one. -/
  | statusNotRead
  /-- Raised by a step whose answer does not have the shape of the outstanding event's answer (30_encoding.md R72). The interface types
  exclude it. Safe. -/
  | answerMismatch
  /-- Raised by a step whose command or answer has an operand out of its width, or a source region that does not hold C bytes: "cannot be
  expressed" (30_encoding.md R78, 43_interface.md R220, U16). Safe. -/
  | operandOutOfRange
  /-- Raised by a step at IDLE that finds an answer although no event is outstanding (43_interface.md R210). Safe. -/
  | unsolicitedAnswer
  /-- Raised by a step that finds a host write during an invocation: the host has no such move (60_exceptions.md R259, U10). Safe. -/
  | hostWriteDuringInvocation
deriving DecidableEq, Repr

/-- The state of the machine (10_state.md R21, R35 to R38). `none` in a register is the spec's own value "no value" (R34). -/
structure State where
  /-- PHASE (R23), 4 bits. -/
  phase : BitVec 4
  /-- KIND (R25). -/
  kind : Option Kind
  /-- POS (R26), an IDX_W-bit count. -/
  pos : Option Nat
  /-- CAP (R27), an IDX_W-bit count. -/
  cap : Option Nat
  /-- EFF (R28), an IDX_W-bit count. -/
  eff : Option Nat
  /-- LATCH (R29). -/
  latch : Option Byte
  /-- RESULT (R30). -/
  result : Option Bool
  /-- ARMED (R31). -/
  armed : Bool
  /-- TMO (R32). -/
  tmo : Option Timeout
  /-- RXBUF: the reference to the receive buffer while the handler holds one (R36, 20_memory.md R52). -/
  rxbuf : Option Ref
  /-- Host memory, in which receive buffers lie: RXBUF[i] is at the reference plus i (R36, 20_memory.md R60). -/
  mem : Memory
  /-- TXSRC: the bytes of the source region at indices 0 .. C - 1 while the handler holds one (R37). -/
  txsrc : Memory
  /-- The trace (R38), oldest event first. -/
  trace : List Event
  /-- A command was refused BUSY_COMMAND in this run (60_exceptions.md R259). -/
  busyRefused : Bool
  /-- The model's own: how many events the trace held when the present or last invocation was accepted, or at a reset. -/
  invStart : Nat
  /-- The model's own: IDX_W and LEN_W (00_scope.md R8). -/
  params : Params
  /-- The model's own: what is still to arrive from the other agents, oldest first. -/
  inbox : List Input
deriving DecidableEq, Repr

/-- The machine right after reset (70_reset_and_hazards.md R270), with nothing emitted and nothing to arrive. The parameters and
the contents of host memory are the model's choice (log entries 2 and 5). -/
def State.reset : State where
  phase := 0x0#4
  kind := none
  pos := none
  cap := none
  eff := none
  latch := none
  result := none
  armed := false
  tmo := none
  rxbuf := none
  mem := []
  txsrc := []
  trace := []
  busyRefused := false
  invStart := 0
  params := Params.ofTestVectors
  inbox := []

/-- The outcome of an instruction or a step. -/
abbrev Outcome := Host.Outcome State Fault Refusal

end Sys2Proof.Machine
end

