-- ==== Sys2Proof/Machine/Flags.lean ====
section
/-! DEFINITION. The handler has no flags (spec/10_state.md R39). Its computed booleans are the acknowledge intents (R33), by the
functions of spec/30_encoding.md R76. -/

namespace Sys2Proof.Machine

/-- RECEIVE_BYTE's ACK (R76). Counts are exact here, so nothing wraps. -/
def ackRx (pos cap : Nat) : Bool := decide (pos + 1 < cap)

/-- TRANSMIT_BYTE's ACK (R76). -/
def ackTx (pos eff : Nat) : Bool := decide (pos + 1 < eff)

end Sys2Proof.Machine
end

