-- ==== Sys2Proof/Machine/Operands.lean ====
section
/-! DEFINITION. Operand values (spec/30_encoding.md R75, R76) and the places a byte access reaches (spec/20_memory.md R50, R51,
R60). -/

namespace Sys2Proof.Machine

/-- EFF: the smaller of the declared length and the capacity, compared as exact counts (R76). -/
def effLength (len c : Nat) : Nat := min len c

/-- POS after one more byte (10_state.md R26), in the register's IDX_W bits. R134 and R175: the sum never leaves them in a
reachable state. -/
def nextPos (p : Params) (pos : Nat) : Nat := (pos + 1) % p.idxBound

/-- The host-memory address of RXBUF[i] for a receive buffer whose reference is `buf` (R60). -/
def rxAddr (buf : Ref) (i : Nat) : Nat := buf + i

end Sys2Proof.Machine
end

