-- ==== Sys2Proof/Machine/Ops.lean ====
section
/-! DEFINITION. The named operations over phases, memory and registers that the meanings share, among them the single exit of
every invocation, `finish` (spec/41_receive.md R136), which takes the place of exception entry (spec/60_exceptions.md R247), and
the return to IDLE (R248). -/

namespace Sys2Proof.Machine

/-- The code of a phase (10_state.md R23). -/
def phaseCode : Phase → BitVec 4
  | .idle => 0x0#4
  | .rxCheck => 0x1#4
  | .rxXfer => 0x2#4
  | .rxVerify => 0x3#4
  | .txCheck => 0x4#4
  | .txProvide => 0x5#4
  | .txXfer => 0x6#4
  | .txVerify => 0x7#4
  | .finRelease => 0x8#4
  | .finDone => 0x9#4
  | .complete => 0xA#4

/-- The phase of a code; the reserved codes 0xB to 0xF are none (R23). -/
def phaseOfCode (c : BitVec 4) : Option Phase :=
  match c.toNat with
  | 0 => some .idle
  | 1 => some .rxCheck
  | 2 => some .rxXfer
  | 3 => some .rxVerify
  | 4 => some .txCheck
  | 5 => some .txProvide
  | 6 => some .txXfer
  | 7 => some .txVerify
  | 8 => some .finRelease
  | 9 => some .finDone
  | 10 => some .complete
  | _ => none

/-! ## Memory -/

/-- The byte at an address, if it has a value. -/
def readByte : Memory → Nat → Option Byte
  | [], _ => none
  | (a, v) :: rest, addr => if a = addr then some v else readByte rest addr

/-- Write one byte (`MemWrite(region, i, 1, v)`, 00_scope.md R10), keeping addresses strictly rising. -/
def writeByte : Memory → Nat → Byte → Memory
  | [], addr, v => [(addr, v)]
  | (a, w) :: rest, addr, v =>
    if addr < a then (addr, v) :: (a, w) :: rest
    else if a = addr then (addr, v) :: rest
    else (a, w) :: writeByte rest addr v

/-- A region that holds the given bytes at consecutive addresses. -/
def regionFrom : Nat → List Byte → Memory
  | _, [] => []
  | a, b :: rest => (a, b) :: regionFrom (a + 1) rest

/-- The one canonical form of a memory: addresses strictly rising. -/
def Memory.wf : Memory → Bool
  | [] => true
  | [_] => true
  | (a, _) :: (b, v) :: rest => decide (a < b) && Memory.wf ((b, v) :: rest)

/-! ## Registers and control -/

/-- Go on with the value of a register; a register that holds none faults (U6). -/
def withReg {α : Type} (r : Option α) (k : α → Outcome) : Outcome :=
  match r with
  | some a => k a
  | none => .fault .registerNone

/-- `PHASE <- p` (R10). -/
def goto (p : Phase) (s : State) : State := { s with phase := phaseCode p }

/-- Put an event, with its arguments and its answer, at the end of the trace (R38). -/
def emit (e : Event) (s : State) : State := { s with trace := s.trace ++ [e] }

/-- `finish(r)`, the single exit of every invocation (41_receive.md R136), which is also abort entry (60_exceptions.md R247). -/
def finish (r : Bool) (s : State) : State :=
  { s with result := some r, phase := phaseCode (if s.armed then .finRelease else .complete) }

/-- `rx_next`, the receive loop test (41_receive.md R132). -/
def rxNext (s : State) : Outcome :=
  withReg s.pos fun pos => withReg s.cap fun cap =>
    .next (if pos < cap then goto .rxXfer s else finish true s)

/-- `tx_next`, the transmit loop test (42_transmit.md R173). -/
def txNext (s : State) : Outcome :=
  withReg s.pos fun pos => withReg s.eff fun eff =>
    .next (if pos < eff then goto .txXfer s else finish true s)

/-- The commitment of a receive at RX_CHECK (41_receive.md R131): ARMED <- 1, POS <- 0. -/
def commit (s : State) : State := { s with armed := true, pos := some 0 }

/-- Store an accepted byte: `MemWrite(RXBUF, POS, 1, LATCH); POS <- POS + 1; LATCH <- none` (R134). -/
def storeLatch (buf : Ref) (pos : Nat) (b : Byte) (s : State) : State :=
  { s with mem := writeByte s.mem (rxAddr buf pos) b, pos := some (nextPos s.params pos), latch := none }

/-- POS <- POS + 1 after an accepted transmit status (42_transmit.md R175). -/
def advancePos (pos : Nat) (s : State) : State := { s with pos := some (nextPos s.params pos) }

/-- What TX_PROVIDE writes before `tx_next` (R172). -/
def takeSource (src : List Byte) (c len : Nat) (s : State) : State :=
  { s with txsrc := regionFrom 0 src, cap := some c, eff := some (effLength len c), armed := true, pos := some 0 }

/-- Put all nine registers at the values of R270, and drop the regions held (20_memory.md R52). COMPLETE does so (R139) and
so does reset (R270, R271). Host memory, the trace and the record of refusals are not touched. -/
def clearRegisters (s : State) : State :=
  { s with
    phase := phaseCode .idle, kind := none, pos := none, cap := none, eff := none, latch := none, result := none,
    armed := false, tmo := none, rxbuf := none, txsrc := [] }

/-- Reset (R270, R271): the registers as R270 says, nothing emitted, no host memory touched. An invocation that was cut has no
events of its own any more. -/
def applyReset (s : State) : State := { clearRegisters s with invStart := s.trace.length }

/-- What accepting HANDLE_RECEIVE writes (R130). -/
def acceptReceive (buf : Ref) (capacity : Nat) (timeout : Timeout) (s : State) : State :=
  { s with
    rxbuf := some buf, kind := some .receive, cap := some capacity, tmo := some timeout, armed := false, pos := none,
    eff := none, latch := none, result := none, phase := phaseCode .rxCheck, invStart := s.trace.length }

/-- What accepting HANDLE_TRANSMIT writes (42_transmit.md R170). -/
def acceptTransmit (timeout : Timeout) (s : State) : State :=
  { s with
    kind := some .transmit, tmo := some timeout, armed := false, pos := none, cap := none, eff := none, latch := none,
    result := none, phase := phaseCode .txCheck, invStart := s.trace.length }

/-- A command that is not accepted: nothing changes but the record BUSY_COMMAND (60_exceptions.md R259, V57). -/
def refuseBusy (s : State) : State := { s with busyRefused := true }

/-- Take a command: at IDLE it is accepted, at any other phase it is refused BUSY_COMMAND (R130, R170, R259). -/
def takeCommand (accept : State → State) (s : State) : Outcome :=
  match phaseOfCode s.phase with
  | none => .fault .phaseReserved
  | some .idle => .next (accept s)
  | some _ => .next (refuseBusy s)

/-- Run a phase body if the handler is at that phase; an event is emitted by its own phases only (10_state.md R23). -/
def atPhase (p : Phase) (body : Outcome) (s : State) : Outcome :=
  match phaseOfCode s.phase with
  | none => .fault .phaseReserved
  | some q => if q = p then body else .refused .eventNotEmitted

/-- The event code a phase emits (R23, 30_encoding.md R72); IDLE emits none. -/
def phaseEvent : Phase → Option (BitVec 4)
  | .idle => none
  | .rxCheck => some 0x1#4
  | .rxXfer => some 0x2#4
  | .rxVerify => some 0x1#4
  | .txCheck => some 0x1#4
  | .txProvide => some 0x6#4
  | .txXfer => some 0x3#4
  | .txVerify => some 0x1#4
  | .finRelease => some 0x4#4
  | .finDone => some 0x5#4
  | .complete => some 0x7#4

end Sys2Proof.Machine
end

