-- ==== Sys2Proof/Machine/Command.lean ====
section
/-! DEFINITION. The two commands (spec/41_receive.md R130, spec/42_transmit.md R170). Acceptance emits no event. -/

namespace Sys2Proof.Machine

/-- HANDLE_RECEIVE (R130); away from IDLE it is refused BUSY_COMMAND (60_exceptions.md R259). -/
def execHandleReceive (buf : Ref) (capacity : Nat) (timeout : Timeout) (s : State) : Outcome :=
  takeCommand (acceptReceive buf capacity timeout) s

/-- HANDLE_TRANSMIT (R170); away from IDLE it is refused BUSY_COMMAND. -/
def execHandleTransmit (timeout : Timeout) (s : State) : Outcome :=
  takeCommand (acceptTransmit timeout) s

end Sys2Proof.Machine
end

