-- ==== Sys2Proof/Decode.lean ====
section
/-! DEFINITION. The decoder and the encoder (spec/30_encoding.md R70 to R79). Decoding is total on every encoded item and
rejects by name: a reserved EVT code (R78) and an answer of another shape than its event's (R72). No status value is
illegal (R78). -/

namespace Sys2Proof

/-- The status-code map (R73), as the one table that R74 asks for: decoder, encoder and invariants read the codes from it, so a
corrected table changes this place only. -/
def statusTable : List (Byte × StatusEvent) :=
  [(0x60#8, .addrMatchWrite), (0x80#8, .dataRxAck), (0x88#8, .dataRxNack), (0xA8#8, .addrMatchRead), (0xB8#8, .dataTxAck)]

/-- `decode8(S)` (R73): the whole 8-bit value is compared, nothing is masked (R71). -/
def decode8 (s : Byte) : StatusEvent :=
  match statusTable.find? (fun row => row.1 == s) with
  | some row => row.2
  | none => .unexpected

/-- The code of a defined status event, from the same table. UNEXPECTED stands for many values and has no row; its code is never
asked for, and is 0 here only because the function is total. -/
def statusCode (ev : StatusEvent) : Byte :=
  match statusTable.find? (fun row => row.2 == ev) with
  | some row => row.1
  | none => 0#8

/-- Why an encoded item is no instruction. -/
inductive DecodeError where
  /-- An EVT code 0x0 or 0x8 to 0xF: reserved, never emitted (R72, R78, U8). -/
  | reservedEvtCode (code : BitVec 4)
  /-- The answer does not have the fields that R72 gives the event. -/
  | answerMismatch (code : BitVec 4)
deriving DecidableEq, Repr

/-- The instruction of a status byte (R73). -/
def decodeStatus (s : Byte) : Instr :=
  match decode8 s with
  | .addrMatchWrite => .addrMatchWrite
  | .dataRxAck => .dataRxAck
  | .dataRxNack => .dataRxNack
  | .addrMatchRead => .addrMatchRead
  | .dataTxAck => .dataTxAck
  | .unexpected => .unexpected s

/-- The command of a CMD record, selected by OP alone (R70, R77). -/
def decodeCmd (w : CmdWord) : Instr :=
  if w.op = 0#1 then .handleReceive w.buf w.capacity w.timeout else .handleTransmit w.timeout

/-- RECEIVE_BYTE's answer: OK = 0 is `none`, whatever B holds; OK = 1 is `some(B)` (R72). -/
def decodeByteAnswer (ok : Bit) (b : Byte) : Option Byte := if boolOfBit ok then some b else none

/-- The interface event of a 4-bit code and an answer (R72). -/
def decodeEvt (code : BitVec 4) (ans : Answer) : Except DecodeError Instr :=
  match code.toNat with
  | 1 => match ans with
    | .status s => .ok (.readStatus s)
    | _ => .error (.answerMismatch code)
  | 2 => match ans with
    | .byte ok b => .ok (.receiveByte (decodeByteAnswer ok b))
    | _ => .error (.answerMismatch code)
  | 3 => match ans with
    | .ok ok => .ok (.transmitByte (boolOfBit ok))
    | _ => .error (.answerMismatch code)
  | 4 => match ans with
    | .done => .ok .releaseBus
    | _ => .error (.answerMismatch code)
  | 5 => match ans with
    | .done => .ok .onDone
    | _ => .error (.answerMismatch code)
  | 6 => match ans with
    | .source src c len => .ok (.provide src c len)
    | _ => .error (.answerMismatch code)
  | 7 => match ans with
    | .nothing => .ok .complete
    | _ => .error (.answerMismatch code)
  | _ => .error (.reservedEvtCode code)

/-- The decoder, on an item of any format (R77, R79). -/
def decode : Packet → Except DecodeError Instr
  | .cmd w => .ok (decodeCmd w)
  | .status8 s => .ok (decodeStatus s)
  | .evt code ans => decodeEvt code ans

/-- RECEIVE_BYTE's answer as OK and B; B is 0 where it has no meaning. -/
def encodeByteAnswer : Option Byte → Answer
  | some b => .byte 1#1 b
  | none => .byte 0#1 0#8

/-- The encoder, from the same tables of R70, R72 and R73. A field that R70 does not give a command is 0. -/
def encode : Instr → Packet
  | .handleReceive buf capacity timeout => .cmd { op := 0#1, buf := buf, capacity := capacity, timeout := timeout }
  | .handleTransmit timeout => .cmd { op := 1#1, buf := 0, capacity := 0, timeout := timeout }
  | .addrMatchWrite => .status8 (statusCode .addrMatchWrite)
  | .dataRxAck => .status8 (statusCode .dataRxAck)
  | .dataRxNack => .status8 (statusCode .dataRxNack)
  | .addrMatchRead => .status8 (statusCode .addrMatchRead)
  | .dataTxAck => .status8 (statusCode .dataTxAck)
  | .unexpected s => .status8 s
  | .readStatus s => .evt 0x1#4 (.status s)
  | .receiveByte answer => .evt 0x2#4 (encodeByteAnswer answer)
  | .transmitByte ok => .evt 0x3#4 (.ok (bitOfBool ok))
  | .releaseBus => .evt 0x4#4 .done
  | .onDone => .evt 0x5#4 .done
  | .provide src c len => .evt 0x6#4 (.source src c len)
  | .complete => .evt 0x7#4 .nothing

/-- The item that carries the same meaning with every field that has none set to 0: BUF and CAPACITY of a HANDLE_TRANSMIT
(R70) and B of a failed RECEIVE_BYTE (R72). -/
def Packet.canonical : Packet → Packet
  | .cmd w => if w.op = 0#1 then .cmd w else .cmd { op := 1#1, buf := 0, capacity := 0, timeout := w.timeout }
  | .status8 s => .status8 s
  | .evt code (.byte ok b) => if boolOfBit ok then .evt code (.byte ok b) else .evt code (.byte ok 0#8)
  | .evt code ans => .evt code ans

/-- The answer with every field 0 that the event of a code takes (a table row gives an answer no bits). -/
def zeroAnswer (code : BitVec 4) : Answer :=
  match code.toNat with
  | 1 => .status 0#8
  | 2 => .byte 0#1 0#8
  | 3 => .ok 0#1
  | 6 => .source [] 0 0
  | 7 => .nothing
  | _ => .done

/-- The encoded item of a row of the opcode table: its word, every operand 0. The three formats are numbered apart, not
within one word (R79), so a whole byte below 0x08 has readings in more than one of them: 0 and 1 are read as commands
(OP is their bit 0), 2 to 7 as events, every other byte as a status value. A word of 1 bit is a command and one of
2 to 4 bits an event. DESIGN CHOICE, log entry 8: safe, no step reads an item this way. -/
def tablePacket (nbits w : Nat) : Option Packet :=
  let cmd : Option Packet := some (.cmd { op := BitVec.ofNat 1 w, buf := 0, capacity := 0, timeout := 0 })
  let evt : Option Packet := some (.evt (BitVec.ofNat 4 w) (zeroAnswer (BitVec.ofNat 4 w)))
  if 2 ^ nbits ≤ w ∨ nbits = 0 ∨ 8 < nbits then none
  else if nbits = 1 then cmd
  else if nbits ≤ 4 then evt
  else if w < 2 then cmd
  else if w < 8 then evt
  else some (.status8 (BitVec.ofNat 8 w))

/-- The instruction the decoder reads from a word of spec/opcode_table.json. -/
def decodeTableWord (nbits w : Nat) : Option Instr :=
  match tablePacket nbits w with
  | some item => (decode item).toOption
  | none => none

end Sys2Proof
end

