-- ==== Sys2Proof/Machine/Status.lean ====
section
/-! DEFINITION. The status events: dispatch at the four phases that read the status (spec/40_status_decode.md R100 to R110). -/

namespace Sys2Proof.Machine

/-- The set of status events a phase expects (R100); none for a phase that reads no status. -/
def expectedAt : Phase → Option (List StatusEvent)
  | .rxCheck => some [.addrMatchWrite]
  | .rxVerify => some [.dataRxAck, .dataRxNack]
  | .txCheck => some [.addrMatchRead]
  | .txVerify => some [.dataTxAck]
  | .idle => none
  | .rxXfer => none
  | .txProvide => none
  | .txXfer => none
  | .finRelease => none
  | .finDone => none
  | .complete => none

/-- RX_CHECK's action on accept: commit, then `rx_next` (R131). -/
def acceptRxCheck (s : State) : Outcome := rxNext (commit s)

/-- RX_VERIFY's action on accept: the store, then `rx_next` (R134). A position that is not below CAP is out of bounds, where an
access has no behaviour (20_memory.md R57). -/
def acceptRxVerify (s : State) : Outcome :=
  withReg s.rxbuf fun buf => withReg s.pos fun pos => withReg s.cap fun cap => withReg s.latch fun b =>
    if pos < cap then rxNext (storeLatch buf pos b s) else .fault .rxbufOutOfBounds

/-- TX_CHECK's action on accept (R171). -/
def acceptTxCheck (s : State) : Outcome := .next (goto .txProvide s)

/-- TX_VERIFY's action on accept: POS <- POS + 1, then `tx_next` (R175). -/
def acceptTxVerify (s : State) : Outcome := withReg s.pos fun pos => txNext (advancePos pos s)

/-- A phase's action on accept (R100). -/
def onAccept : Phase → State → Outcome
  | .rxCheck, s => acceptRxCheck s
  | .rxVerify, s => acceptRxVerify s
  | .txCheck, s => acceptTxCheck s
  | .txVerify, s => acceptTxVerify s
  | .idle, _ => .refused .statusNotRead
  | .rxXfer, _ => .refused .statusNotRead
  | .txProvide, _ => .refused .statusNotRead
  | .txXfer, _ => .refused .statusNotRead
  | .finRelease, _ => .refused .statusNotRead
  | .finDone, _ => .refused .statusNotRead
  | .complete, _ => .refused .statusNotRead

/-- `dispatch(PHASE, S)` on the decoded event (R101): membership in the expected set; every other event is rejected alike, with
`finish(false)`. -/
def dispatchStatus (ev : StatusEvent) (s : State) : Outcome :=
  match phaseOfCode s.phase with
  | none => .fault .phaseReserved
  | some p =>
    match expectedAt p with
    | none => .refused .statusNotRead
    | some evs => if evs.contains ev then onAccept p s else .next (finish false s)

/-- ADDR_MATCH_WRITE (R104). -/
def execAddrMatchWrite (s : State) : Outcome := dispatchStatus .addrMatchWrite s

/-- DATA_RX_ACK (R105, with LATCH emptied as R134 says). -/
def execDataRxAck (s : State) : Outcome := dispatchStatus .dataRxAck s

/-- DATA_RX_NACK (R106): at RX_VERIFY the same as DATA_RX_ACK, at every position (R109). -/
def execDataRxNack (s : State) : Outcome := dispatchStatus .dataRxNack s

/-- ADDR_MATCH_READ (R107). -/
def execAddrMatchRead (s : State) : Outcome := dispatchStatus .addrMatchRead s

/-- DATA_TX_ACK (R108). -/
def execDataTxAck (s : State) : Outcome := dispatchStatus .dataTxAck s

/-- UNEXPECTED (R110): rejected at every phase that reads the status, whatever the value. -/
def execUnexpected (_status : Byte) (s : State) : Outcome := dispatchStatus .unexpected s

/-- Run the status event that a status byte decodes to (R73, R101). -/
def runStatus (status : Byte) (s : State) : Outcome :=
  match decode8 status with
  | .addrMatchWrite => execAddrMatchWrite s
  | .dataRxAck => execDataRxAck s
  | .dataRxNack => execDataRxNack s
  | .addrMatchRead => execAddrMatchRead s
  | .dataTxAck => execDataTxAck s
  | .unexpected => execUnexpected status s

end Sys2Proof.Machine
end

