-- ==== Sys2Proof/Machine/Exchange.lean ====
section
/-! DEFINITION. The interface events: each is one exchange, request and answer, and one phase body (spec/43_interface.md R210 to
R217, spec/10_state.md R23, R10: a step runs in full or not at all). -/

namespace Sys2Proof.Machine

/-- READ_STATUS (R211) at any of the four phases that emit it; the phase dispatches on the answer and drops it (40_status_decode.md R101,
R111). -/
def execReadStatus (status : Byte) (s : State) : Outcome :=
  match phaseOfCode s.phase with
  | none => .fault .phaseReserved
  | some p =>
    match expectedAt p with
    | none => .refused .eventNotEmitted
    | some _ => runStatus status (emit (.readStatus status) s)

/-- What RX_XFER does with the answer (41_receive.md R133). -/
def afterReceive (answer : Option Byte) (s : State) : State :=
  match answer with
  | none => finish false s
  | some b => goto .rxVerify { s with latch := some b }

/-- RECEIVE_BYTE (R212): phase body RX_XFER (R133). -/
def execReceiveByte (answer : Option Byte) (s : State) : Outcome :=
  atPhase .rxXfer
    (withReg s.pos fun pos => withReg s.cap fun cap => withReg s.tmo fun tmo =>
      .next (afterReceive answer (emit (.receiveByte (ackRx pos cap) tmo answer) s)))
    s

/-- What TX_XFER does with the answer (42_transmit.md R174). -/
def afterTransmit (ok : Bool) (s : State) : State :=
  if ok then goto .txVerify s else finish false s

/-- Read TXSRC at an index (`MemRead(TXSRC, i, 1)`, R174); no byte there is out of bounds (20_memory.md R57). -/
def withSourceByte (i : Nat) (s : State) (k : Byte → Outcome) : Outcome :=
  match readByte s.txsrc i with
  | some b => k b
  | none => .fault .txsrcOutOfBounds

/-- TRANSMIT_BYTE (R213): phase body TX_XFER (R174). -/
def execTransmitByte (ok : Bool) (s : State) : Outcome :=
  atPhase .txXfer
    (withReg s.pos fun pos => withReg s.eff fun eff => withReg s.tmo fun tmo => withSourceByte pos s fun b =>
      .next (afterTransmit ok (emit (.transmitByte b (ackTx pos eff) tmo ok) s)))
    s

/-- Where FIN_RELEASE goes (41_receive.md R137). -/
def afterRelease : Kind → Phase
  | .receive => .finDone
  | .transmit => .complete

/-- RELEASE_BUS (R214): phase body FIN_RELEASE (R137). -/
def execReleaseBus (s : State) : Outcome :=
  atPhase .finRelease (withReg s.kind fun kind => .next (goto (afterRelease kind) (emit .releaseBus s))) s

/-- ON_DONE (R215): phase body FIN_DONE (R138). -/
def execOnDone (s : State) : Outcome :=
  atPhase .finDone
    (withReg s.rxbuf fun buf => withReg s.pos fun pos => .next (goto .complete (emit (.onDone buf pos) s))) s

/-- PROVIDE (R216): phase body TX_PROVIDE (42_transmit.md R172). -/
def execProvide (src : List Byte) (c len : Nat) (s : State) : Outcome :=
  atPhase .txProvide (txNext (takeSource src c len (emit (.provide src c len) s))) s

/-- COMPLETE (R217): phase body COMPLETE (R139), the return to IDLE. -/
def execComplete (s : State) : Outcome :=
  atPhase .complete (withReg s.result fun r => .next (clearRegisters (emit (.complete r) s))) s

end Sys2Proof.Machine
end

