-- ==== Sys2Proof/Machine/Dispatch.lean ====
section
/-! DEFINITION. One arm per constructor of Instr. -/

namespace Sys2Proof.Machine

def exec (i : Instr) (s : State) : Host.Outcome State Fault Refusal :=
  match i with
  | .handleReceive buf capacity timeout => Sys2Proof.Machine.execHandleReceive buf capacity timeout s
  | .handleTransmit timeout => Sys2Proof.Machine.execHandleTransmit timeout s
  | .addrMatchWrite => Sys2Proof.Machine.execAddrMatchWrite s
  | .dataRxAck => Sys2Proof.Machine.execDataRxAck s
  | .dataRxNack => Sys2Proof.Machine.execDataRxNack s
  | .addrMatchRead => Sys2Proof.Machine.execAddrMatchRead s
  | .dataTxAck => Sys2Proof.Machine.execDataTxAck s
  | .unexpected status => Sys2Proof.Machine.execUnexpected status s
  | .readStatus status => Sys2Proof.Machine.execReadStatus status s
  | .receiveByte answer => Sys2Proof.Machine.execReceiveByte answer s
  | .transmitByte ok => Sys2Proof.Machine.execTransmitByte ok s
  | .releaseBus => Sys2Proof.Machine.execReleaseBus s
  | .onDone => Sys2Proof.Machine.execOnDone s
  | .provide src c len => Sys2Proof.Machine.execProvide src c len s
  | .complete => Sys2Proof.Machine.execComplete s

end Sys2Proof.Machine
end

