-- ==== Sys2Proof/WellFormed.lean ====
section
/-! DEFINITION. Well-formed instructions: the operand values the interface types of the spec allow (spec/30_encoding.md R78,
92_eei_decisions.md D5, D6; 43_interface.md R220). -/

namespace Sys2Proof

/-- The checks, for the parameters `p`. CAPACITY and C are IDX_W-bit, L is LEN_W-bit, SRC holds C bytes, and UNEXPECTED
stands for no code that R73 defines. -/
def Instr.wellFormed (p : Params) : Instr → Bool
  | .handleReceive _ capacity _ => decide (capacity < p.idxBound)
  | .handleTransmit _ => true
  | .addrMatchWrite => true
  | .dataRxAck => true
  | .dataRxNack => true
  | .addrMatchRead => true
  | .dataTxAck => true
  | .unexpected s => decode8 s == .unexpected
  | .readStatus _ => true
  | .receiveByte _ => true
  | .transmitByte _ => true
  | .releaseBus => true
  | .onDone => true
  | .provide src c len => decide (src.length = c) && decide (c < p.idxBound) && decide (len < p.lenBound)
  | .complete => true

end Sys2Proof
end

