-- ==== Sys2Proof/Machine/Fetch.lean ====
section
/-! DEFINITION. What a step runs next. The handler fetches no instructions from memory (spec/20_memory.md R65): PHASE names the event
the step emits (spec/10_state.md R23), what arrives in `inbox` is its answer, a command or a reset, and the decoder turns the two
into an instruction (log entry 1). -/

namespace Sys2Proof.Machine

/-- What a step has in hand. -/
inductive Fetched where
  /-- An instruction, and the state to run it in. -/
  | run (i : Instr) (s : State)
  /-- A change that is no instruction: reset or a host write. -/
  | move (s : State)
  /-- No next state. -/
  | fault (f : Fault)
  /-- No meaning. -/
  | refused (r : Refusal)
deriving DecidableEq, Repr

/-- Decode an item, and check its operands against the interface types (30_encoding.md R78). -/
def fetchItem (item : Packet) (s : State) : Fetched :=
  match decode item with
  | .error _ => .refused .answerMismatch
  | .ok i => if i.wellFormed s.params then .run i s else .refused .operandOutOfRange

/-- Nothing more arrives: COMPLETE waits for no answer (43_interface.md R210) and goes on, IDLE is the run's end, and any other phase
is stuck (60_exceptions.md R259, R260). -/
def fetchSilent (p : Phase) (s : State) : Fetched :=
  match p with
  | .complete => fetchItem (.evt 0x7#4 .nothing) s
  | .idle => .fault .runEnded
  | _ => .fault .stuck

/-- An answer arrives: it answers the event the phase emits (R210). At COMPLETE, which has no answer, `nothing` marks where the
event lies in the order of what arrives: what stands behind it comes after the invocation (log entry 1). -/
def fetchAnswer (p : Phase) (a : Answer) (s : State) : Fetched :=
  match phaseEvent p with
  | some code => fetchItem (.evt code a) s
  | none => .refused .unsolicitedAnswer

/-- The host writes its memory: possible at IDLE only (20_memory.md R64, 60_exceptions.md R259). -/
def fetchHostWrite (p : Phase) (addr : Nat) (v : Byte) (s : State) : Fetched :=
  match p with
  | .idle => .move { s with mem := writeByte s.mem addr v }
  | _ => .refused .hostWriteDuringInvocation

/-- What a step at phase `p` runs. Reset comes first at every phase (70_reset_and_hazards.md R271). A command is taken at every phase,
COMPLETE included: whether it is accepted or refused BUSY_COMMAND is its meaning's (60_exceptions.md R248, R259). -/
def fetchAt (p : Phase) (s : State) : Fetched :=
  match s.inbox with
  | [] => fetchSilent p s
  | .reset :: rest => .move (applyReset { s with inbox := rest })
  | .command w :: rest => fetchItem (.cmd w) { s with inbox := rest }
  | .answer a :: rest => fetchAnswer p a { s with inbox := rest }
  | .hostWrite addr v :: rest => fetchHostWrite p addr v { s with inbox := rest }

/-- What a step runs: a reserved PHASE code is the fault PHASE_RESERVED (30_encoding.md R78). -/
def fetch (s : State) : Fetched :=
  match phaseOfCode s.phase with
  | none => .fault .phaseReserved
  | some p => fetchAt p s

/-! ## Placing one instruction (the host's `withFetchWord`) -/

/-- A phase at which an instruction has its effect: IDLE for a command, a phase that accepts a status event, and the phase that
emits an interface event. -/
def placePhase : Instr → Phase
  | .handleReceive _ _ _ => .idle
  | .handleTransmit _ => .idle
  | .addrMatchWrite => .rxCheck
  | .dataRxAck => .rxVerify
  | .dataRxNack => .rxVerify
  | .addrMatchRead => .txCheck
  | .dataTxAck => .txVerify
  | .unexpected _ => .rxCheck
  | .readStatus _ => .rxCheck
  | .receiveByte _ => .rxXfer
  | .transmitByte _ => .txXfer
  | .releaseBus => .finRelease
  | .onDone => .finDone
  | .provide _ _ _ => .txProvide
  | .complete => .complete

/-- What arrives from outside when the instruction is the next one to run. -/
def placeInput (i : Instr) : Input :=
  match encode i with
  | .cmd w => .command w
  | .status8 s => .answer (.status s)
  | .evt _ a => .answer a

/-- The registers that an invocation at phase `p` holds: a receive into a 1-byte buffer at reference 0, or a transmit of a 1-byte
source, at its first byte; at the finalization phases a receive that has stored nothing and failed. -/
def readyAt (p : Phase) (s : State) : State :=
  let rx : State := { clearRegisters s with kind := some .receive, cap := some 1, tmo := some 0, rxbuf := some 0 }
  let tx : State := { clearRegisters s with kind := some .transmit, tmo := some 0 }
  let txHeld : State :=
    { tx with armed := true, pos := some 0, cap := some 1, eff := some 1, txsrc := regionFrom 0 [0#8] }
  let rxHeld : State := { rx with armed := true, pos := some 0 }
  goto p (match p with
    | .idle => clearRegisters s
    | .rxCheck => rx
    | .rxXfer => rxHeld
    | .rxVerify => { rxHeld with latch := some 0#8 }
    | .txCheck => tx
    | .txProvide => tx
    | .txXfer => txHeld
    | .txVerify => txHeld
    | .finRelease => { rxHeld with result := some false }
    | .finDone => { rxHeld with result := some false }
    | .complete => { rxHeld with result := some false })

/-- The state in which the very next step runs `i`. -/
def placeInstr (i : Instr) (s : State) : State :=
  { readyAt (placePhase i) s with inbox := placeInput i :: s.inbox }

end Sys2Proof.Machine
end

