-- ==== Sys2Proof/Machine/Step.lean ====
section
/-! DEFINITION. One step of the machine: a phase body with its answer, the acceptance of a command, a reset, or a host write
(spec/10_state.md R23). -/

namespace Sys2Proof.Machine

/-- Run what `fetch` gives. -/
def step (s : State) : Host.Outcome State Fault Refusal :=
  match fetch s with
  | .run i s' => exec i s'
  | .move s' => .next s'
  | .fault f => .fault f
  | .refused r => .refused r

/-- The state with the instruction of a word of the opcode table placed where the next step takes it (log entry 8). The handler has
no program memory: the word's instruction is what the next command or answer makes the handler run, at a phase where it has
its effect, with the registers an invocation holds there. -/
def State.withFetchWord (s : State) (nbits w : Nat) : State :=
  match decodeTableWord nbits w with
  | some i => placeInstr i s
  | none => s

end Sys2Proof.Machine
end

