-- ==== Sys2Proof/Machine/Trace.lean ====
section
/-! DEFINITION. The observation of a run (spec/10_state.md R38): events and their codes, the request that is outstanding while the
handler waits (spec/43_interface.md R210), one invocation's events, and the abort class those events show (spec/60_exceptions.md
R241, R246). -/

namespace Sys2Proof.Machine

/-- An interface event as the handler sends it, without an answer (30_encoding.md R72, the column of arguments). -/
inductive Request where
  | readStatus
  | receiveByte (ack : Bool) (tmo : Timeout)
  | transmitByte (v : Byte) (ack : Bool) (tmo : Timeout)
  | releaseBus
  | onDone (buf : Ref) (count : Nat)
  | provide
  | complete (result : Bool)
deriving DecidableEq, Repr

/-- The request of an event of the trace. -/
def eventRequest : Event → Request
  | .readStatus _ => .readStatus
  | .receiveByte ack tmo _ => .receiveByte ack tmo
  | .transmitByte v ack tmo _ => .transmitByte v ack tmo
  | .releaseBus => .releaseBus
  | .onDone buf count => .onDone buf count
  | .provide _ _ _ => .provide
  | .complete result => .complete result

/-- The 4-bit code of an event (R72). -/
def eventCode : Event → BitVec 4
  | .readStatus _ => 0x1#4
  | .receiveByte _ _ _ => 0x2#4
  | .transmitByte _ _ _ _ => 0x3#4
  | .releaseBus => 0x4#4
  | .onDone _ _ => 0x5#4
  | .provide _ _ _ => 0x6#4
  | .complete _ => 0x7#4

/-- The request a phase body emits, computed from the registers alone (10_state.md R23, 30_encoding.md R76): what the primitive
layer or the host sees while the handler waits for the answer. IDLE and the reserved codes emit none, and neither does a
phase that lacks a register it reads. -/
def pendingRequest (s : State) : Option Request :=
  match phaseOfCode s.phase with
  | none => none
  | some .idle => none
  | some .rxCheck => some .readStatus
  | some .rxXfer => s.pos.bind fun pos => s.cap.bind fun cap => s.tmo.map fun tmo => .receiveByte (ackRx pos cap) tmo
  | some .rxVerify => some .readStatus
  | some .txCheck => some .readStatus
  | some .txProvide => some .provide
  | some .txXfer =>
    s.pos.bind fun pos => s.eff.bind fun eff => s.tmo.bind fun tmo => (readByte s.txsrc pos).map fun v =>
      .transmitByte v (ackTx pos eff) tmo
  | some .txVerify => some .readStatus
  | some .finRelease => some .releaseBus
  | some .finDone => s.rxbuf.bind fun buf => s.pos.map fun pos => .onDone buf pos
  | some .complete => s.result.map fun r => .complete r

/-- The events of the present invocation, or of the last one at IDLE. -/
def invEvents (s : State) : List Event := s.trace.drop s.invStart

/-- How an invocation ends (60_exceptions.md R241). The class is a label of the trace, not an output of the handler. -/
inductive AbortClass where
  | success | notForHandler | protocolViolation | hwTimeout
deriving DecidableEq, Repr

/-- The number of a class (R241). -/
def abortCode : AbortClass → Nat
  | .success => 0
  | .notForHandler => 1
  | .protocolViolation => 2
  | .hwTimeout => 3

/-- A byte primitive that failed (R244). -/
def failedByte : Event → Bool
  | .receiveByte _ _ none => true
  | .transmitByte _ _ _ false => true
  | .receiveByte _ _ (some _) => false
  | .transmitByte _ _ _ true => false
  | .readStatus _ => false
  | .releaseBus => false
  | .onDone _ _ => false
  | .provide _ _ _ => false
  | .complete _ => false

/-- The result that COMPLETE hands to the host, if the events end with COMPLETE (R217). -/
def reportedResult (events : List Event) : Option Bool :=
  match events.getLast? with
  | some (.complete r) => some r
  | _ => none

/-- The class of a finished invocation, recomputed from its events (R241, R246): a result of 1 is success. With a result of 0, a failed
byte primitive is class 3, an invocation without a bus release is class 1, and any other is class 2. -/
def abortClassOf (events : List Event) : Option AbortClass :=
  match reportedResult events with
  | none => none
  | some true => some .success
  | some false =>
    if events.any failedByte then some .hwTimeout
    else if events.contains .releaseBus then some .protocolViolation
    else some .notForHandler

/-- How many times RELEASE_BUS occurs (41_receive.md R140). -/
def releaseCount (events : List Event) : Nat := events.countP fun e => e == .releaseBus

/-- How many times ON_DONE occurs (R140). -/
def doneCount (events : List Event) : Nat := events.countP fun e => eventCode e == 0x5#4

/-- How many times PROVIDE occurs (42_transmit.md R178). -/
def provideCount (events : List Event) : Nat := events.countP fun e => eventCode e == 0x6#4

end Sys2Proof.Machine
end

