-- ==== Sys2Proof/Safety.lean ====
section
/-! DEFINITION. What claims about the handler are stated in: the invariants of spec/10_state.md R43, the registers each phase holds
(R34), and the shapes that the events of one invocation have (spec/41_receive.md R146, spec/42_transmit.md R183). -/

namespace Sys2Proof.Machine

/-- The handler is at phase `p`. -/
def AtPhase (p : Phase) (s : State) : Prop := s.phase = phaseCode p

/-! ## Registers held at each phase -/

/-- Every register but PHASE has its value of R270 (which R139 gives it too). -/
def RegistersCleared (s : State) : Prop :=
  s.kind = none ∧ s.pos = none ∧ s.cap = none ∧ s.eff = none ∧ s.latch = none ∧ s.result = none ∧ s.armed = false ∧
    s.tmo = none

/-- Nothing of an invocation is held: no register value, and no region (20_memory.md R52; log entry 4). -/
def Cleared (s : State) : Prop := RegistersCleared s ∧ s.rxbuf = none ∧ s.txsrc = []

/-- What a receive holds from acceptance to COMPLETE. -/
def HoldsRx (s : State) : Prop :=
  s.kind = some .receive ∧ s.eff = none ∧ (∃ t, s.tmo = some t) ∧ (∃ b, s.rxbuf = some b) ∧
    ∃ c, s.cap = some c ∧ c < s.params.idxBound

/-- What a transmit holds from acceptance to COMPLETE. -/
def HoldsTx (s : State) : Prop :=
  s.kind = some .transmit ∧ s.latch = none ∧ s.rxbuf = none ∧ ∃ t, s.tmo = some t

/-- A transmit that PROVIDE has not yet answered, or that was not for this handler. -/
def NoSource (s : State) : Prop := s.pos = none ∧ s.cap = none ∧ s.eff = none

/-- A transmit's position, effective length and capacity, and its source: POS ≤ EFF ≤ CAP, and TXSRC holds CAP bytes. -/
def HasSource (s : State) (pos eff : Nat) : Prop :=
  s.pos = some pos ∧ s.eff = some eff ∧ pos ≤ eff ∧
    ∃ c, s.cap = some c ∧ eff ≤ c ∧ c < s.params.idxBound ∧ ∀ i, i < c → ∃ v, readByte s.txsrc i = some v

/-- A receive's position: POS ≤ CAP. -/
def HasPos (s : State) (pos cap : Nat) : Prop := s.pos = some pos ∧ s.cap = some cap ∧ pos ≤ cap

/-- The registers at each phase (R34, R43). -/
def PhaseInv : Phase → State → Prop
  | .idle, s => Cleared s
  | .rxCheck, s => HoldsRx s ∧ s.armed = false ∧ s.pos = none ∧ s.latch = none ∧ s.result = none
  | .rxXfer, s => HoldsRx s ∧ s.armed = true ∧ s.latch = none ∧ s.result = none ∧ ∃ p c, HasPos s p c ∧ p < c
  | .rxVerify, s => HoldsRx s ∧ s.armed = true ∧ (∃ b, s.latch = some b) ∧ s.result = none ∧ ∃ p c, HasPos s p c ∧ p < c
  | .txCheck, s => HoldsTx s ∧ s.armed = false ∧ NoSource s ∧ s.result = none
  | .txProvide, s => HoldsTx s ∧ s.armed = false ∧ NoSource s ∧ s.result = none
  | .txXfer, s => HoldsTx s ∧ s.armed = true ∧ s.result = none ∧ ∃ p e, HasSource s p e ∧ p < e
  | .txVerify, s => HoldsTx s ∧ s.armed = true ∧ s.result = none ∧ ∃ p e, HasSource s p e ∧ p < e
  | .finRelease, s =>
    s.armed = true ∧ ∃ r, s.result = some r ∧
      ((HoldsRx s ∧ ∃ p c, HasPos s p c ∧ (r = true ↔ p = c)) ∨ (HoldsTx s ∧ ∃ p e, HasSource s p e ∧ (r = true ↔ p = e)))
  | .finDone, s => s.armed = true ∧ ∃ r, s.result = some r ∧ HoldsRx s ∧ ∃ p c, HasPos s p c ∧ (r = true ↔ p = c)
  | .complete, s =>
    ∃ r, s.result = some r ∧
      ((s.armed = true ∧ HoldsRx s ∧ ∃ p c, HasPos s p c ∧ (r = true ↔ p = c)) ∨
        (s.armed = true ∧ HoldsTx s ∧ ∃ p e, HasSource s p e ∧ (r = true ↔ p = e)) ∨
        (s.armed = false ∧ r = false ∧ HoldsRx s ∧ s.pos = none ∧ s.latch = none) ∨
        (s.armed = false ∧ r = false ∧ HoldsTx s ∧ NoSource s))

/-- The invariant of the machine: PHASE holds a legal code, the registers are those of the phase, and both memories keep their
canonical form. -/
def HandlerInv (s : State) : Prop :=
  Memory.wf s.mem = true ∧ Memory.wf s.txsrc = true ∧ ∃ p, AtPhase p s ∧ PhaseInv p s

/-! ## Shapes of an invocation's events -/

/-- The events of received bytes from position `i` on: each byte with the status accepted after it. -/
def rxRounds (cap : Nat) (tmo : Timeout) : Nat → List (Byte × Byte) → List Event
  | _, [] => []
  | i, r :: rest => .receiveByte (ackRx i cap) tmo (some r.1) :: .readStatus r.2 :: rxRounds cap tmo (i + 1) rest

/-- A status that RX_VERIFY accepts (R134). -/
def RxGood (v : Byte) : Prop := decode8 v = .dataRxAck ∨ decode8 v = .dataRxNack

/-- Every byte's status was accepted. -/
def RxAccepted (rounds : List (Byte × Byte)) : Prop := ∀ r ∈ rounds, RxGood r.2

/-- The events of a receive that has committed and stored the bytes of `rounds`. -/
def rxBegun (cap : Nat) (tmo : Timeout) (rounds : List (Byte × Byte)) : List Event :=
  .readStatus (statusCode .addrMatchWrite) :: rxRounds cap tmo 0 rounds

/-- The events of a receive whose loop has ended with a result: the whole buffer was filled, the byte at the next position failed, or
its status was rejected (R146, the part before REL of shapes 2, 3 and 4). -/
def RxLoopEnd (cap : Nat) (tmo : Timeout) (rounds : List (Byte × Byte)) (r : Bool) (events : List Event) : Prop :=
  (r = true ∧ rounds.length = cap ∧ events = rxBegun cap tmo rounds) ∨
  (r = false ∧ rounds.length < cap ∧
    events = rxBegun cap tmo rounds ++ [.receiveByte (ackRx rounds.length cap) tmo none]) ∨
  (r = false ∧ rounds.length < cap ∧ ∃ b u, ¬RxGood u ∧
    events = rxBegun cap tmo rounds ++ [.receiveByte (ackRx rounds.length cap) tmo (some b), .readStatus u])

/-- The events of a whole HANDLE_RECEIVE (R146): shape 1, or one of shapes 2 to 4. -/
def RxShape (cap : Nat) (tmo : Timeout) (buf : Ref) (events : List Event) : Prop :=
  (∃ s, decode8 s ≠ .addrMatchWrite ∧ events = [.readStatus s, .complete false]) ∨
  ∃ rounds r loop, RxAccepted rounds ∧ RxLoopEnd cap tmo rounds r loop ∧
    events = loop ++ [.releaseBus, .onDone buf rounds.length, .complete r]

/-- The events of sent bytes from position `i` on. -/
def txRounds (eff : Nat) (tmo : Timeout) : Nat → List Byte → List Event
  | _, [] => []
  | i, d :: rest => .transmitByte d (ackTx i eff) tmo true :: .readStatus (statusCode .dataTxAck) :: txRounds eff tmo (i + 1) rest

/-- The events of a transmit that PROVIDE has answered and whose first `k` bytes were accepted. -/
def txBegun (src : List Byte) (c len : Nat) (tmo : Timeout) (k : Nat) : List Event :=
  .readStatus (statusCode .addrMatchRead) :: .provide src c len :: txRounds (effLength len c) tmo 0 (src.take k)

/-- The events of a transmit whose loop has ended with a result (42_transmit.md R183, the part before REL of shapes 2, 3 and 4). -/
def TxLoopEnd (src : List Byte) (c len : Nat) (tmo : Timeout) (k : Nat) (r : Bool) (events : List Event) : Prop :=
  (r = true ∧ k = effLength len c ∧ events = txBegun src c len tmo k) ∨
  (r = false ∧ k < effLength len c ∧ ∃ d, src[k]? = some d ∧
    events = txBegun src c len tmo k ++ [.transmitByte d (ackTx k (effLength len c)) tmo false]) ∨
  (r = false ∧ k < effLength len c ∧ ∃ d u, src[k]? = some d ∧ decode8 u ≠ .dataTxAck ∧
    events = txBegun src c len tmo k ++ [.transmitByte d (ackTx k (effLength len c)) tmo true, .readStatus u])

/-- The events of a whole HANDLE_TRANSMIT (R183): shape 1, or one of shapes 2 to 4. -/
def TxShape (tmo : Timeout) (events : List Event) : Prop :=
  (∃ s, decode8 s ≠ .addrMatchRead ∧ events = [.readStatus s, .complete false]) ∨
  ∃ src c len k r loop, src.length = c ∧ TxLoopEnd src c len tmo k r loop ∧ events = loop ++ [.releaseBus, .complete r]

/-- The bytes of `rounds` stand in the receive buffer, from index 0 on (20_memory.md R54). -/
def RxStored (mem : Memory) (buf : Ref) (rounds : List (Byte × Byte)) : Prop :=
  ∀ i r, rounds[i]? = some r → readByte mem (rxAddr buf i) = some r.1

/-- A committed receive: its operands, and what it has accepted and stored. -/
def RxAt (s : State) (buf : Ref) (cap : Nat) (tmo : Timeout) (rounds : List (Byte × Byte)) : Prop :=
  s.rxbuf = some buf ∧ s.cap = some cap ∧ s.tmo = some tmo ∧ s.pos = some rounds.length ∧ rounds.length ≤ cap ∧
    RxAccepted rounds ∧ RxStored s.mem buf rounds

/-- A committed transmit: its timeout, its source, its declared length and how many bytes were accepted. -/
def TxAt (s : State) (src : List Byte) (c len : Nat) (tmo : Timeout) (k : Nat) : Prop :=
  s.tmo = some tmo ∧ s.txsrc = regionFrom 0 src ∧ src.length = c ∧ s.cap = some c ∧ s.eff = some (effLength len c) ∧
    s.pos = some k ∧ k ≤ effLength len c

/-- The events of an invocation that has reached phase `p`. -/
def ShapeAt : Phase → State → Prop
  | .idle, s => invEvents s = [] ∨ (∃ cap tmo buf, RxShape cap tmo buf (invEvents s)) ∨ ∃ tmo, TxShape tmo (invEvents s)
  | .rxCheck, s => invEvents s = []
  | .rxXfer, s => ∃ buf cap tmo rounds, RxAt s buf cap tmo rounds ∧ invEvents s = rxBegun cap tmo rounds
  | .rxVerify, s => ∃ buf cap tmo rounds b, RxAt s buf cap tmo rounds ∧ s.latch = some b ∧
      invEvents s = rxBegun cap tmo rounds ++ [.receiveByte (ackRx rounds.length cap) tmo (some b)]
  | .txCheck, s => invEvents s = []
  | .txProvide, s => invEvents s = [.readStatus (statusCode .addrMatchRead)]
  | .txXfer, s => ∃ src c len tmo k, TxAt s src c len tmo k ∧ invEvents s = txBegun src c len tmo k
  | .txVerify, s => ∃ src c len tmo k d, TxAt s src c len tmo k ∧ src[k]? = some d ∧
      invEvents s = txBegun src c len tmo k ++ [.transmitByte d (ackTx k (effLength len c)) tmo true]
  | .finRelease, s => ∃ r, s.result = some r ∧
      ((s.kind = some .receive ∧ ∃ buf cap tmo rounds, RxAt s buf cap tmo rounds ∧
          RxLoopEnd cap tmo rounds r (invEvents s)) ∨
        (s.kind = some .transmit ∧ ∃ src c len tmo k, TxAt s src c len tmo k ∧ TxLoopEnd src c len tmo k r (invEvents s)))
  | .finDone, s => ∃ r, s.result = some r ∧ ∃ buf cap tmo rounds loop, RxAt s buf cap tmo rounds ∧
      RxLoopEnd cap tmo rounds r loop ∧ invEvents s = loop ++ [.releaseBus]
  | .complete, s => ∃ r, s.result = some r ∧
      ((s.armed = false ∧ r = false ∧ ∃ v, invEvents s = [.readStatus v] ∧
          (s.kind = some .receive → decode8 v ≠ .addrMatchWrite) ∧ (s.kind = some .transmit → decode8 v ≠ .addrMatchRead)) ∨
        (s.armed = true ∧ s.kind = some .receive ∧ ∃ buf cap tmo rounds loop, RxAt s buf cap tmo rounds ∧
          RxLoopEnd cap tmo rounds r loop ∧ invEvents s = loop ++ [.releaseBus, .onDone buf rounds.length]) ∨
        (s.armed = true ∧ s.kind = some .transmit ∧ ∃ src c len tmo k loop, TxAt s src c len tmo k ∧
          TxLoopEnd src c len tmo k r loop ∧ invEvents s = loop ++ [.releaseBus]))

/-- The invariant with the events: each phase's registers, and the events that led to it. -/
def TraceInv (s : State) : Prop :=
  HandlerInv s ∧ s.invStart ≤ s.trace.length ∧ ∀ p, AtPhase p s → ShapeAt p s

/-- The bytes that a receive's events show to be accepted: each byte answered and followed by a status that RX_VERIFY accepts, in
order (20_memory.md R54, R59). -/
def acceptedBytes : List Event → List Byte
  | [] => []
  | .receiveByte _ _ (some b) :: .readStatus v :: rest =>
    if decode8 v = .dataRxAck ∨ decode8 v = .dataRxNack then b :: acceptedBytes rest else acceptedBytes rest
  | _ :: rest => acceptedBytes rest

/-! ## Answers that make an invocation run to its end -/

/-- The answers to the bytes of a receive. -/
def rxAnswers (rounds : List (Byte × Byte)) : List Input :=
  rounds.flatMap fun r => [.answer (.byte 1#1 r.1), .answer (.status r.2)]

/-- The answers to the bytes of a transmit, `k` of them. -/
def txAnswers (k : Nat) : List Input :=
  (List.replicate k [Input.answer (.ok 1#1), Input.answer (.status (statusCode .dataTxAck))]).flatten

/-! ## Named parts of statements -/

/-- The phases that the rule of a phase moves to, in a state that meets the invariant (10_state.md R24; R130 to R139, R170 to R175).
ARMED is known there, so `finish` goes to the one place that R136 gives it. -/
def phaseSuccessors : Phase → List Phase
  | .idle => [.rxCheck, .txCheck]
  | .rxCheck => [.rxXfer, .finRelease, .complete]
  | .rxXfer => [.rxVerify, .finRelease]
  | .rxVerify => [.rxXfer, .finRelease]
  | .txCheck => [.txProvide, .complete]
  | .txProvide => [.txXfer, .finRelease]
  | .txXfer => [.txVerify, .finRelease]
  | .txVerify => [.txXfer, .finRelease]
  | .finRelease => [.finDone, .complete]
  | .finDone => [.complete]
  | .complete => [.idle]

/-- The phases whose rule calls `finish` with ARMED as it stands. -/
def finishingPhases : List Phase := [.rxCheck, .rxXfer, .rxVerify, .txCheck, .txXfer, .txVerify]

/-- A step that leaves PHASE: a command refused away from IDLE (60_exceptions.md R259), or a host write at IDLE. -/
def PhaseStays (p : Phase) (s : State) : Prop :=
  (p ≠ .idle ∧ ∃ w, s.inbox.head? = some (.command w)) ∨ (p = .idle ∧ ∃ addr v, s.inbox.head? = some (.hostWrite addr v))

/-- The state after RX_VERIFY accepts the byte in LATCH (R134): the byte at RXBUF[POS], POS + 1, LATCH empty, then RX_XFER or, the
buffer full, the finalization that ARMED asks for. -/
def afterStore (buf : Ref) (pos cap : Nat) (b : Byte) (s : State) : State :=
  if pos + 1 < cap then
    { s with mem := writeByte s.mem (buf + pos) b, pos := some (pos + 1), latch := none, phase := 0x2#4 }
  else
    { s with
      mem := writeByte s.mem (buf + pos) b, pos := some (pos + 1), latch := none, result := some true,
      phase := if s.armed then 0x8#4 else 0xA#4 }

/-- The instructions that store to no memory at all: every one but the two data statuses and READ_STATUS with such an answer. -/
def StoresNothing (i : Instr) : Prop :=
  i ≠ .dataRxAck ∧ i ≠ .dataRxNack ∧ ∀ v, i = .readStatus v → ¬RxGood v

/-! ## What two states may differ in without the handler noticing -/

/-- The state without what no phase body reads: the trace and its mark, and the record of refusals. -/
def forgetHistory (s : State) : State := { s with trace := [], busyRefused := false, invStart := 0 }

end Sys2Proof.Machine
end

