-- ==== Sys2Proof/Certificates/Slice0/Obligations.lean ====
section
/-! DEFINITION. The statements for the provers, from the numbered rules of spec/. Each holds of every state, reached by a run or not;
a statement that needs more names the invariant it takes as a premise. -/

open Sys2Proof Sys2Proof.Machine

/-! ## Reset -/

/-- R270: reset leaves PHASE = IDLE, ARMED = 0 and every other register without a value, and emits no event. -/
def Obligations.ResetIsIdleAndCleared : Prop :=
  State.reset.phase = 0x0#4 ∧ RegistersCleared State.reset ∧ State.reset.trace = []

/-- R271, R270: a reset at any phase goes to the registers of R270 at once, emits nothing and touches no host memory. That the
regions held are dropped (RXBUF, TXSRC) and that the cut invocation has no events of its own (the mark) is the model's
reading, log entries 4 and 7. -/
def Obligations.ResetAbandonsInvocation : Prop :=
  ∀ s p rest, AtPhase p s → s.inbox = .reset :: rest →
    ∃ t, step s = .next t ∧ t.phase = 0x0#4 ∧ RegistersCleared t ∧ t.trace = s.trace ∧ t.mem = s.mem ∧
      t.rxbuf = none ∧ t.txsrc = [] ∧ t.busyRefused = s.busyRefused ∧ t.params = s.params ∧ t.inbox = rest ∧
      t.invStart = s.trace.length

/-! ## Decoding -/

/-- R73: the event of every one of the 256 status values. -/
def Obligations.StatusByteDecodes : Prop :=
  ∀ v : Byte, decode8 v =
    if v = 0x60#8 then .addrMatchWrite
    else if v = 0x80#8 then .dataRxAck
    else if v = 0x88#8 then .dataRxNack
    else if v = 0xA8#8 then .addrMatchRead
    else if v = 0xB8#8 then .dataTxAck
    else .unexpected

/-- R70 to R73, R77: decoding what the encoder writes gives the instruction back, for every well-formed instruction under every
IDX_W and LEN_W, and an item that decodes is, up to fields that have no meaning, what the encoder writes for it. -/
def Obligations.DecodeAndEncodeAgree : Prop :=
  (∀ p i, i.wellFormed p = true → decode (encode i) = .ok i) ∧
  (∀ item i, decode item = .ok i → encode i = item.canonical)

/-- R72, R78: the event codes 0x0 and 0x8 to 0xF are refused by name, whatever the answer; and no event carries one. -/
def Obligations.ReservedEventCodesRefused : Prop :=
  (∀ (code : BitVec 4) (a : Answer), code = 0x0#4 ∨ 0x8 ≤ code.toNat → decode (.evt code a) = .error (.reservedEvtCode code)) ∧
  (∀ e : Event, 0x1 ≤ (eventCode e).toNat ∧ (eventCode e).toNat ≤ 0x7)

/-- R70, R72, R73: a few words written out bit by bit from the spec's encodings decode to the instructions they stand for. -/
def Obligations.SpecWordsDecode : Prop :=
  decode (.cmd { op := 0b0#1, buf := 7, capacity := 3, timeout := 9 }) = .ok (.handleReceive 7 3 9) ∧
  decode (.cmd { op := 0b1#1, buf := 0, capacity := 0, timeout := 9 }) = .ok (.handleTransmit 9) ∧
  decode (.status8 0b01100000#8) = .ok .addrMatchWrite ∧
  decode (.status8 0b10001000#8) = .ok .dataRxNack ∧
  decode (.status8 0b01100001#8) = .ok (.unexpected 0x61#8) ∧
  decode (.evt 0b0001#4 (.status 0xA8#8)) = .ok (.readStatus 0xA8#8) ∧
  decode (.evt 0b0010#4 (.byte 1#1 0x7E#8)) = .ok (.receiveByte (some 0x7E#8)) ∧
  decode (.evt 0b0111#4 .nothing) = .ok .complete

/-! ## Steps -/

/-- A step runs the decoded instruction: at every phase, a command or an answer at the head of the inbox is taken and its instruction
run; and with nothing more to arrive, COMPLETE, which waits for nothing (R210), is run. -/
def Obligations.StepRunsDecodedInstruction : Prop :=
  (∀ s p w rest i, AtPhase p s → s.inbox = .command w :: rest → decode (.cmd w) = .ok i →
    i.wellFormed s.params = true → step s = exec i { s with inbox := rest }) ∧
  (∀ s p a rest code i, AtPhase p s → s.inbox = .answer a :: rest → phaseEvent p = some code →
    decode (.evt code a) = .ok i → i.wellFormed s.params = true → step s = exec i { s with inbox := rest }) ∧
  (∀ s, AtPhase .complete s → s.inbox = [] → step s = exec .complete s)

/-- R211, R101: READ_STATUS at a phase that reads the status runs the status event that the answer decodes to, with the event
put in the trace. -/
def Obligations.StatusAnswerRunsItsEvent : Prop :=
  ∀ s p evs v, AtPhase p s → expectedAt p = some evs →
    exec (.readStatus v) s = exec (decodeStatus v) (emit (.readStatus v) s)

/-- R78, R259: at a reserved PHASE code every step and every instruction is the fault PHASE_RESERVED. -/
def Obligations.ReservedPhaseFaults : Prop :=
  ∀ s, 0xB ≤ s.phase.toNat → step s = .fault .phaseReserved ∧ ∀ i, exec i s = .fault .phaseReserved

/-- R259, R260: with nothing more to arrive, the run ends at IDLE, and at every other phase but COMPLETE the handler is stuck. -/
def Obligations.SilenceEndsOrSticks : Prop :=
  ∀ s p, AtPhase p s → s.inbox = [] →
    (p = .idle → step s = .fault .runEnded) ∧ (p ≠ .idle → p ≠ .complete → step s = .fault .stuck)

/-- R259, D14: a host write during an invocation, COMPLETE included, is no move of the host; at IDLE it writes that one byte of host
memory. -/
def Obligations.HostWritesOnlyAtIdle : Prop :=
  ∀ s p addr v rest, AtPhase p s → s.inbox = .hostWrite addr v :: rest →
    (p = .idle → ∃ t, step s = .next t ∧ readByte t.mem addr = some v ∧
      (∀ a, a ≠ addr → readByte t.mem a = readByte s.mem a) ∧ t = { s with inbox := rest, mem := t.mem }) ∧
    (p ≠ .idle → step s = .refused .hostWriteDuringInvocation)

/-! ## Commands -/

/-- R130, R259: HANDLE_RECEIVE at IDLE writes all nine registers and RXBUF and nothing else (the mark invStart is the model's own);
at any other phase nothing changes but the record BUSY_COMMAND (that the run goes on is log entry 6). -/
def Obligations.HandleReceiveEffect : Prop :=
  ∀ s p buf capacity timeout, AtPhase p s →
    exec (.handleReceive buf capacity timeout) s = .next
      (if p = .idle then
        { s with
          rxbuf := some buf, kind := some .receive, cap := some capacity, tmo := some timeout, armed := false, pos := none,
          eff := none, latch := none, result := none, phase := 0x1#4, invStart := s.trace.length }
      else { s with busyRefused := true })

/-- R170, R259: HANDLE_TRANSMIT at IDLE writes all nine registers and nothing else; at any other phase nothing changes but the record
BUSY_COMMAND. -/
def Obligations.HandleTransmitEffect : Prop :=
  ∀ s p timeout, AtPhase p s →
    exec (.handleTransmit timeout) s = .next
      (if p = .idle then
        { s with
          kind := some .transmit, tmo := some timeout, armed := false, pos := none, cap := none, eff := none, latch := none,
          result := none, phase := 0x4#4, invStart := s.trace.length }
      else { s with busyRefused := true })

/-- R259, R248, V57, V58: a well-formed command that arrives at any phase but IDLE, from a callback or at COMPLETE too, is taken from the
inbox with none of its effect: the record BUSY_COMMAND is all that changes. -/
def Obligations.BusyCommandTurnedAway : Prop :=
  ∀ s p w rest, AtPhase p s → p ≠ .idle → s.inbox = .command w :: rest →
    (decodeCmd w).wellFormed s.params = true → step s = .next { s with busyRefused := true, inbox := rest }

/-! ## The shared control operations -/

/-- R132: `rx_next` goes to RX_XFER while POS < CAP and else finishes with true. -/
def Obligations.RxNextLoopTest : Prop :=
  ∀ s pos cap, s.pos = some pos → s.cap = some cap →
    rxNext s = .next (if pos < cap then { s with phase := 0x2#4 } else finish true s)

/-- R173: `tx_next` goes to TX_XFER while POS < EFF and else finishes with true. -/
def Obligations.TxNextLoopTest : Prop :=
  ∀ s pos eff, s.pos = some pos → s.eff = some eff →
    txNext s = .next (if pos < eff then { s with phase := 0x6#4 } else finish true s)

/-- R136, R247: `finish(r)` writes RESULT, goes to FIN_RELEASE when ARMED is 1 and to COMPLETE otherwise, and writes nothing else. -/
def Obligations.FinishGoesWhereArmedSays : Prop :=
  ∀ r s, finish r s = { s with result := some r, phase := if s.armed then 0x8#4 else 0xA#4 }

/-! ## Status events -/

/-- R104: ADDR_MATCH_WRITE commits a receive at RX_CHECK and is rejected at the other three status phases. -/
def Obligations.AddrMatchWriteEffect : Prop :=
  (∀ s cap, AtPhase .rxCheck s → s.cap = some cap →
    exec .addrMatchWrite s = .next
      (if 0 < cap then { s with armed := true, pos := some 0, phase := 0x2#4 }
      else { s with armed := true, pos := some 0, result := some true, phase := 0x8#4 })) ∧
  (∀ s p, AtPhase p s → p = .rxVerify ∨ p = .txCheck ∨ p = .txVerify → exec .addrMatchWrite s = .next (finish false s))

/-- R105, R109 (LATCH as R134 says): DATA_RX_ACK at RX_VERIFY stores the byte at every position POS < CAP of a capacity in range, and is
rejected at the other three status phases. -/
def Obligations.DataRxAckEffect : Prop :=
  (∀ s buf pos cap b, AtPhase .rxVerify s → s.rxbuf = some buf → s.pos = some pos → s.cap = some cap → s.latch = some b →
    pos < cap → cap < s.params.idxBound → exec .dataRxAck s = .next (afterStore buf pos cap b s)) ∧
  (∀ s p, AtPhase p s → p = .rxCheck ∨ p = .txCheck ∨ p = .txVerify → exec .dataRxAck s = .next (finish false s))

/-- R106, R109: DATA_RX_NACK does exactly what DATA_RX_ACK does, the position being the last or not. -/
def Obligations.DataRxNackEffect : Prop :=
  (∀ s buf pos cap b, AtPhase .rxVerify s → s.rxbuf = some buf → s.pos = some pos → s.cap = some cap → s.latch = some b →
    pos < cap → cap < s.params.idxBound → exec .dataRxNack s = .next (afterStore buf pos cap b s)) ∧
  (∀ s p, AtPhase p s → p = .rxCheck ∨ p = .txCheck ∨ p = .txVerify → exec .dataRxNack s = .next (finish false s))

/-- R107: ADDR_MATCH_READ at TX_CHECK writes PHASE only; it is rejected at the other three status phases. -/
def Obligations.AddrMatchReadEffect : Prop :=
  (∀ s, AtPhase .txCheck s → exec .addrMatchRead s = .next { s with phase := 0x5#4 }) ∧
  (∀ s p, AtPhase p s → p = .rxCheck ∨ p = .rxVerify ∨ p = .txVerify → exec .addrMatchRead s = .next (finish false s))

/-- R108, R109: DATA_TX_ACK at TX_VERIFY advances POS (an effective length in range) and goes on or finishes with true; it is rejected at
the other three status phases. -/
def Obligations.DataTxAckEffect : Prop :=
  (∀ s pos eff, AtPhase .txVerify s → s.pos = some pos → s.eff = some eff → pos < eff → eff < s.params.idxBound →
    exec .dataTxAck s = .next
      (if pos + 1 < eff then { s with pos := some (pos + 1), phase := 0x6#4 }
      else { s with pos := some (pos + 1), result := some true, phase := if s.armed then 0x8#4 else 0xA#4 })) ∧
  (∀ s p, AtPhase p s → p = .rxCheck ∨ p = .rxVerify ∨ p = .txCheck → exec .dataTxAck s = .next (finish false s))

/-- R110: UNEXPECTED, with any value, is rejected at all four status phases: RESULT and PHASE through `finish(false)`, nothing else. -/
def Obligations.UnexpectedEffect : Prop :=
  ∀ s p v, AtPhase p s → p = .rxCheck ∨ p = .rxVerify ∨ p = .txCheck ∨ p = .txVerify →
    exec (.unexpected v) s = .next { s with result := some false, phase := if s.armed then 0x8#4 else 0xA#4 }

/-- R101, and the accepted entries of R102: over the four status phases and all 256 values, the accepted pairs are the five A's of the
table, and every other pair ends in `finish(false)`. -/
def Obligations.DispatchTable : Prop :=
  ∀ s p evs v, AtPhase p s → expectedAt p = some evs →
    (decode8 v ∈ evs ↔
      (p = .rxCheck ∧ v = 0x60#8) ∨ (p = .rxVerify ∧ (v = 0x80#8 ∨ v = 0x88#8)) ∨ (p = .txCheck ∧ v = 0xA8#8) ∨
        (p = .txVerify ∧ v = 0xB8#8)) ∧
    (decode8 v ∉ evs → exec (decodeStatus v) s = .next (finish false s)) ∧
    (decode8 v ∈ evs → exec (decodeStatus v) s = onAccept p s)

/-! ## Phase bodies, as interface events -/

/-- R131, R211: RX_CHECK with any status answer. -/
def Obligations.RxCheckBody : Prop :=
  ∀ s cap v, AtPhase .rxCheck s → s.armed = false → s.cap = some cap →
    exec (.readStatus v) s = .next
      (if v = 0x60#8 then
        if 0 < cap then
          { s with trace := s.trace ++ [.readStatus v], armed := true, pos := some 0, phase := 0x2#4 }
        else
          { s with trace := s.trace ++ [.readStatus v], armed := true, pos := some 0, result := some true, phase := 0x8#4 }
      else { s with trace := s.trace ++ [.readStatus v], result := some false, phase := 0xA#4 })

/-- R134, R135, R211: RX_VERIFY with any status answer, for an armed receive at a position POS < CAP of a capacity in range. A rejected
byte is discarded: neither RXBUF nor POS is written. -/
def Obligations.RxVerifyBody : Prop :=
  ∀ s buf pos cap b v, AtPhase .rxVerify s → s.armed = true → s.rxbuf = some buf → s.pos = some pos → s.cap = some cap →
    s.latch = some b → pos < cap → cap < s.params.idxBound →
    exec (.readStatus v) s = .next
      (if v = 0x80#8 ∨ v = 0x88#8 then
        if pos + 1 < cap then
          { s with
            trace := s.trace ++ [.readStatus v], mem := writeByte s.mem (buf + pos) b, pos := some (pos + 1), latch := none,
            phase := 0x2#4 }
        else
          { s with
            trace := s.trace ++ [.readStatus v], mem := writeByte s.mem (buf + pos) b, pos := some (pos + 1), latch := none,
            result := some true, phase := 0x8#4 }
      else { s with trace := s.trace ++ [.readStatus v], result := some false, phase := 0x8#4 })

/-- R171, R211: TX_CHECK with any status answer. -/
def Obligations.TxCheckBody : Prop :=
  ∀ s v, AtPhase .txCheck s → s.armed = false →
    exec (.readStatus v) s = .next
      (if v = 0xA8#8 then { s with trace := s.trace ++ [.readStatus v], phase := 0x5#4 }
      else { s with trace := s.trace ++ [.readStatus v], result := some false, phase := 0xA#4 })

/-- R175, R179, R211: TX_VERIFY with any status answer, for an armed transmit at a position POS < EFF of an effective length in range. -/
def Obligations.TxVerifyBody : Prop :=
  ∀ s pos eff v, AtPhase .txVerify s → s.armed = true → s.pos = some pos → s.eff = some eff → pos < eff →
    eff < s.params.idxBound →
    exec (.readStatus v) s = .next
      (if v = 0xB8#8 then
        if pos + 1 < eff then
          { s with trace := s.trace ++ [.readStatus v], pos := some (pos + 1), phase := 0x6#4 }
        else { s with trace := s.trace ++ [.readStatus v], pos := some (pos + 1), result := some true, phase := 0x8#4 }
      else { s with trace := s.trace ++ [.readStatus v], result := some false, phase := 0x8#4 })

/-- R133, R212: RX_XFER asks for a byte with ACK = (POS + 1 < CAP) and TMO; a byte goes to LATCH and the status is checked next; no byte
ends the invocation with finalization. -/
def Obligations.ReceiveByteBody : Prop :=
  ∀ s pos cap tmo, AtPhase .rxXfer s → s.armed = true → s.pos = some pos → s.cap = some cap → s.tmo = some tmo →
    (∀ b, exec (.receiveByte (some b)) s = .next
      { s with
        trace := s.trace ++ [.receiveByte (decide (pos + 1 < cap)) tmo (some b)], latch := some b, phase := 0x3#4 }) ∧
    exec (.receiveByte none) s = .next
      { s with
        trace := s.trace ++ [.receiveByte (decide (pos + 1 < cap)) tmo none], result := some false, phase := 0x8#4 }

/-- R174, R213: TX_XFER sends TXSRC[POS] with ACK = (POS + 1 < EFF) and TMO; on success the status is checked next; a failure ends the
invocation with finalization. -/
def Obligations.TransmitByteBody : Prop :=
  ∀ s pos eff tmo v ok, AtPhase .txXfer s → s.armed = true → s.pos = some pos → s.eff = some eff → s.tmo = some tmo →
    readByte s.txsrc pos = some v →
    exec (.transmitByte ok) s = .next
      (if ok then { s with trace := s.trace ++ [.transmitByte v (decide (pos + 1 < eff)) tmo true], phase := 0x7#4 }
      else
        { s with
          trace := s.trace ++ [.transmitByte v (decide (pos + 1 < eff)) tmo false], result := some false, phase := 0x8#4 })

/-- R137, R176, R214: FIN_RELEASE emits RELEASE_BUS and writes PHASE only: FIN_DONE on a receive, COMPLETE on a transmit. -/
def Obligations.ReleaseBusBody : Prop :=
  ∀ s kind, AtPhase .finRelease s → s.kind = some kind →
    exec .releaseBus s = .next
      { s with trace := s.trace ++ [.releaseBus], phase := if kind = .receive then 0x9#4 else 0xA#4 }

/-- R138, R215: FIN_DONE emits ON_DONE with the RXBUF reference and COUNT = POS and writes PHASE only. -/
def Obligations.OnDoneBody : Prop :=
  ∀ s buf pos, AtPhase .finDone s → s.rxbuf = some buf → s.pos = some pos →
    exec .onDone s = .next { s with trace := s.trace ++ [.onDone buf pos], phase := 0xA#4 }

/-- R172, R216, R76: TX_PROVIDE takes the source, its capacity and the clamped length, commits, and starts the loop, or finishes at once
when the effective length is 0. TXSRC then holds exactly the bytes of the answer at indices 0 .. C - 1. -/
def Obligations.ProvideBody : Prop :=
  ∀ s src c len, AtPhase .txProvide s → src.length = c → c < s.params.idxBound → len < s.params.lenBound →
    ∃ t, exec (.provide src c len) s = .next t ∧ t.trace = s.trace ++ [.provide src c len] ∧ t.cap = some c ∧
      t.eff = some (min len c) ∧ t.armed = true ∧ t.pos = some 0 ∧ (∀ i, readByte t.txsrc i = src[i]?) ∧
      t.phase = (if 0 < min len c then 0x6#4 else 0x8#4) ∧ t.result = (if 0 < min len c then s.result else some true) ∧
      t.kind = s.kind ∧ t.latch = s.latch ∧ t.tmo = s.tmo ∧ t.rxbuf = s.rxbuf ∧ t.mem = s.mem ∧
      t.busyRefused = s.busyRefused ∧ t.invStart = s.invStart ∧ t.params = s.params ∧ t.inbox = s.inbox

/-- R139, R217: COMPLETE hands RESULT to the host, clears every register and returns to IDLE. That the regions are dropped is R52. -/
def Obligations.CompleteBody : Prop :=
  ∀ s r, AtPhase .complete s → s.result = some r →
    ∃ t, exec .complete s = .next t ∧ t.phase = 0x0#4 ∧ RegistersCleared t ∧ t.rxbuf = none ∧ t.txsrc = [] ∧
      t.trace = s.trace ++ [.complete r] ∧ t.mem = s.mem ∧ t.busyRefused = s.busyRefused ∧ t.invStart = s.invStart ∧
      t.params = s.params ∧ t.inbox = s.inbox

/-! ## Computed values -/

/-- R76, R142, R182: for a position in range the acknowledge intent is 0 at the last position and 1 at every other, on receive and on
transmit. -/
def Obligations.AckIntentIsFalseOnlyAtLast : Prop :=
  ∀ pos n, pos < n → (ackRx pos n = false ↔ pos = n - 1) ∧ (ackTx pos n = false ↔ pos = n - 1)

/-- R76, R177: EFF is the smaller of L and C, at every corner of the table, and never above the capacity. -/
def Obligations.EffectiveLengthIsClamped : Prop :=
  ∀ len c, effLength len c ≤ c ∧ (len < c → effLength len c = len) ∧ (c ≤ len → effLength len c = c) ∧
    effLength 0 c = 0 ∧ effLength len 0 = 0

/-! ## Frames over every instruction and every step -/

/-- R23, R210: a step emits no event or exactly one, the one whose code its phase emits, with the arguments the registers give. -/
def Obligations.StepEmitsItsPhasesEvent : Prop :=
  ∀ s t, step s = .next t →
    t.trace = s.trace ∨
    ∃ p e, AtPhase p s ∧ phaseEvent p = some (eventCode e) ∧ pendingRequest s = some (eventRequest e) ∧
      t.trace = s.trace ++ [e]

/-- R24: the successors of each phase. From every state, a step stays at its phase only for a refused command or a host write at IDLE, and
else moves by a reset to IDLE or along the rule of the phase, whose `finish` goes where ARMED says (R136). In a state that meets the
invariant ARMED is known, and the moves are exactly those of R130 to R139 and R170 to R176. -/
def Obligations.PhaseSuccessors : Prop :=
  ∀ s t p, step s = .next t → AtPhase p s →
    ∃ q, AtPhase q t ∧
      ((q = p ∧ PhaseStays p s) ∨ (q = .idle ∧ s.inbox.head? = some .reset) ∨ q ∈ phaseSuccessors p ∨
        (p ∈ finishingPhases ∧ q = if s.armed then .finRelease else .complete)) ∧
      (HandlerInv s → (q = p ∧ PhaseStays p s) ∨ (q = .idle ∧ s.inbox.head? = some .reset) ∨ q ∈ phaseSuccessors p)

/-- R50, R58: host memory changes in a step only by the one byte a passed check stores at RXBUF[POS], or, at IDLE, by the host's own
write. Every other byte reads as before. -/
def Obligations.MemoryFrame : Prop :=
  ∀ s t, step s = .next t →
    (∀ a, readByte t.mem a = readByte s.mem a) ∨
    (∃ buf pos cap b v, AtPhase .rxVerify s ∧ s.inbox.head? = some (.answer (.status v)) ∧ (v = 0x80#8 ∨ v = 0x88#8) ∧
      s.rxbuf = some buf ∧ s.pos = some pos ∧ s.cap = some cap ∧ pos < cap ∧ s.latch = some b ∧
      readByte t.mem (buf + pos) = some b ∧ ∀ a, a ≠ buf + pos → readByte t.mem a = readByte s.mem a) ∨
    (∃ addr v, AtPhase .idle s ∧ s.inbox.head? = some (.hostWrite addr v) ∧ readByte t.mem addr = some v ∧
      ∀ a, a ≠ addr → readByte t.mem a = readByte s.mem a)

/-- R50, R51: an instruction that is no accepted data status leaves every byte of host memory; a data status stores at the address its
meaning computes, `rxAddr`, and nowhere else. TXSRC is left by every instruction but PROVIDE, which replaces it, and COMPLETE,
which drops it. -/
def Obligations.InstructionMemoryFrame : Prop :=
  ∀ i s t, exec i s = .next t →
    (StoresNothing i → ∀ a, readByte t.mem a = readByte s.mem a) ∧
    (∀ buf pos, s.rxbuf = some buf → s.pos = some pos → ∀ a, a ≠ rxAddr buf pos → readByte t.mem a = readByte s.mem a) ∧
    ((∀ src c len, i ≠ .provide src c len) → i ≠ .complete → t.txsrc = s.txsrc)

/-- R22, R25 to R32: which instruction may write which register. PHASE and RESULT aside, every register an instruction is not named
for is unchanged; the parameters, the inbox and, but for commands, the mark and the record are never written. -/
def Obligations.RegisterFrame : Prop :=
  ∀ i s t, exec i s = .next t →
    t.params = s.params ∧ t.inbox = s.inbox ∧
    (i.format ≠ .cmd → t.busyRefused = s.busyRefused ∧ t.invStart = s.invStart) ∧
    (i.format ≠ .cmd → i ≠ .complete → t.kind = s.kind ∧ t.tmo = s.tmo ∧ t.rxbuf = s.rxbuf) ∧
    (i.format ≠ .cmd → i ≠ .complete → (∀ src c len, i ≠ .provide src c len) → t.cap = s.cap ∧ t.eff = s.eff) ∧
    (i = .releaseBus ∨ i = .onDone ∨ i = .addrMatchRead ∨ (∃ v, i = .unexpected v) ∨ (∃ a, i = .receiveByte a) ∨
        (∃ ok, i = .transmitByte ok) → t.pos = s.pos ∧ t.armed = s.armed) ∧
    (i = .releaseBus ∨ i = .onDone ∨ i = .addrMatchRead ∨ (∃ v, i = .unexpected v) ∨ i = .addrMatchWrite ∨ i = .dataTxAck ∨
        (∃ ok, i = .transmitByte ok) ∨ (∃ src c len, i = .provide src c len) → t.latch = s.latch) ∧
    (i = .dataRxAck ∨ i = .dataRxNack ∨ i = .dataTxAck → t.armed = s.armed) ∧
    (i = .releaseBus ∨ i = .onDone → t.result = s.result) ∧
    (i.format = .status8 → t.trace = s.trace) ∧ (i.format = .cmd → t.trace = s.trace)

/-- R218: every RECEIVE_BYTE and TRANSMIT_BYTE carries TMO unchanged, and only acceptance, COMPLETE and reset write TMO. -/
def Obligations.TimeoutPassedUnchanged : Prop :=
  ∀ s t p, step s = .next t → AtPhase p s →
    (∀ ack tmo a, t.trace = s.trace ++ [.receiveByte ack tmo a] → s.tmo = some tmo) ∧
    (∀ v ack tmo ok, t.trace = s.trace ++ [.transmitByte v ack tmo ok] → s.tmo = some tmo) ∧
    (p ≠ .idle → p ≠ .complete → s.inbox.head? ≠ some .reset → t.tmo = s.tmo)

/-! ## Invariants -/

/-- The state after reset meets the invariant. -/
def Obligations.ResetMeetsInvariant : Prop := HandlerInv State.reset

/-- R43, R34: from every state that meets the invariant, whatever arrives, a step leads to a state that meets it: a legal phase, the
registers of that phase with POS, CAP and EFF in their bounds, and both memories in canonical form. -/
def Obligations.StepKeepsInvariant : Prop := ∀ s t, HandlerInv s → step s = .next t → HandlerInv t

/-- R43: the listed invariants, of every state that meets `TraceInv`. That the initial status check passed is read off the events. -/
def Obligations.InvariantGivesR43 : Prop :=
  ∀ s, TraceInv s →
    (∀ p c, s.pos = some p → s.cap = some c → p ≤ c) ∧
    (∀ p e, s.kind = some .transmit → s.eff = some e → s.pos = some p → p ≤ e ∧ ∃ c, s.cap = some c ∧ e ≤ c) ∧
    (AtPhase .rxXfer s ∨ AtPhase .rxVerify s → ∃ p c, s.pos = some p ∧ s.cap = some c ∧ p < c) ∧
    (AtPhase .txXfer s ∨ AtPhase .txVerify s → ∃ p e, s.pos = some p ∧ s.eff = some e ∧ p < e) ∧
    (s.armed = true →
      (s.kind = some .receive ∧ (invEvents s).head? = some (.readStatus 0x60#8)) ∨
      (s.kind = some .transmit ∧ (invEvents s).head? = some (.readStatus 0xA8#8))) ∧
    (AtPhase .rxXfer s ∨ AtPhase .rxVerify s ∨ AtPhase .txXfer s ∨ AtPhase .txVerify s ∨ AtPhase .finRelease s ∨
      AtPhase .finDone s → s.armed = true) ∧
    (AtPhase .idle s → s.armed = false)

/-- R219, R220: under the invariant every answer has a meaning: at each phase but IDLE, every well-formed answer of the outstanding event
leads to a next state, and COMPLETE goes to IDLE with nothing more to arrive. So no register read finds no value and no access is
out of bounds (R34, R57). -/
def Obligations.EveryAnswerHasAMeaning : Prop :=
  (∀ s p code a i, HandlerInv s → AtPhase p s → phaseEvent p = some code → decode (.evt code a) = .ok i →
    i.wellFormed s.params = true → ∃ t, exec i s = .next t) ∧
  (∀ s, HandlerInv s → AtPhase .complete s → s.inbox = [] → ∃ t, step s = .next t ∧ AtPhase .idle t)

/-- The state after reset meets the invariant with events. -/
def Obligations.ResetMeetsTraceInvariant : Prop := TraceInv State.reset

/-- R146, R183: from every state whose events lead to its phase, whatever arrives, a step leads to such a state. -/
def Obligations.StepKeepsTraceInvariant : Prop := ∀ s t, TraceInv s → step s = .next t → TraceInv t

/-- R146: when COMPLETE ends a receive, the invocation's events have one of the four shapes, for the capacity, timeout and buffer it
held, and COMPLETE hands over the result the shape has. -/
def Obligations.ReceiveHasOneOfFourShapes : Prop :=
  ∀ s cap tmo buf, TraceInv s → AtPhase .complete s → s.kind = some .receive → s.cap = some cap → s.tmo = some tmo →
    s.rxbuf = some buf →
    ∃ t, exec .complete s = .next t ∧ RxShape cap tmo buf (invEvents t) ∧ reportedResult (invEvents t) = s.result

/-- R59, R249, R54, R138: when FIN_DONE reports a count, it is the number of bytes that the invocation's events show to be accepted, and
RXBUF holds the i-th of them at index i. -/
def Obligations.CallbackFindsAcceptedBytes : Prop :=
  ∀ s buf, TraceInv s → AtPhase .finDone s → s.rxbuf = some buf →
    ∃ t, exec .onDone s = .next t ∧ t.trace = s.trace ++ [.onDone buf (acceptedBytes (invEvents s)).length] ∧
      ∀ i b, (acceptedBytes (invEvents s))[i]? = some b → readByte t.mem (rxAddr buf i) = some b

/-- R183, R178: when COMPLETE ends a transmit, the invocation's events have one of the four shapes, for the timeout it held. -/
def Obligations.TransmitHasOneOfFourShapes : Prop :=
  ∀ s tmo, TraceInv s → AtPhase .complete s → s.kind = some .transmit → s.tmo = some tmo →
    ∃ t, exec .complete s = .next t ∧ TxShape tmo (invEvents t) ∧ reportedResult (invEvents t) = s.result

/-- R140, R181, R178: in the events of an invocation that COMPLETE ends, RELEASE_BUS occurs exactly once if the initial check passed and
never otherwise; on receive ON_DONE likewise, right after it, and PROVIDE never; on transmit PROVIDE likewise, and ON_DONE never. -/
def Obligations.ReleaseExactlyOnce : Prop :=
  (∀ s, TraceInv s → AtPhase .complete s → s.kind = some .receive →
    ∃ t, exec .complete s = .next t ∧
      releaseCount (invEvents t) = (if (invEvents t).head? = some (.readStatus 0x60#8) then 1 else 0) ∧
      doneCount (invEvents t) = releaseCount (invEvents t) ∧ provideCount (invEvents t) = 0 ∧
      ∀ before after, invEvents t = before ++ .releaseBus :: after →
        ∃ buf count r, after = [.onDone buf count, .complete r]) ∧
  (∀ s, TraceInv s → AtPhase .complete s → s.kind = some .transmit →
    ∃ t, exec .complete s = .next t ∧
      releaseCount (invEvents t) = (if (invEvents t).head? = some (.readStatus 0xA8#8) then 1 else 0) ∧
      provideCount (invEvents t) = releaseCount (invEvents t) ∧ doneCount (invEvents t) = 0 ∧
      ∀ before after, invEvents t = before ++ .releaseBus :: after → ∃ r, after = [.complete r])

/-- R141: of a receive that COMPLETE ends. If the initial check passed, the result it hands over is true exactly when CAP bytes were
accepted, the accepted bytes are at most CAP and stand in RXBUF in order, and ON_DONE reported their number and no other; if it did
not pass, the result is false, no byte was accepted and ON_DONE does not occur. -/
def Obligations.ResultAndCount : Prop :=
  ∀ s cap, TraceInv s → AtPhase .complete s → s.kind = some .receive → s.cap = some cap →
    ∃ t r buf, exec .complete s = .next t ∧ s.result = some r ∧ s.rxbuf = some buf ∧ reportedResult (invEvents t) = some r ∧
      (if (invEvents t).head? = some (.readStatus 0x60#8) then
        (r = true ↔ (acceptedBytes (invEvents t)).length = cap) ∧ (acceptedBytes (invEvents t)).length ≤ cap ∧
        .onDone buf (acceptedBytes (invEvents t)).length ∈ invEvents t ∧
        (∀ b k, .onDone b k ∈ invEvents t → b = buf ∧ k = (acceptedBytes (invEvents t)).length) ∧
        ∀ i v, (acceptedBytes (invEvents t))[i]? = some v → readByte t.mem (rxAddr buf i) = some v
      else r = false ∧ acceptedBytes (invEvents t) = [] ∧ ∀ b k, .onDone b k ∉ invEvents t)

/-- R241, R242 to R246: the class of each way a receive or a transmit can end, computed from its events: a whole loop is success, a failed
byte is HW_TIMEOUT, a rejected status after a byte is PROTOCOL_VIOLATION, and a failed initial check is NOT_FOR_HANDLER. -/
def Obligations.AbortClassOfEveryEnding : Prop :=
  (∀ v, abortClassOf [.readStatus v, .complete false] = some .notForHandler) ∧
  (∀ cap tmo buf n (rounds : List (Byte × Byte)) (rest : List Event),
    (rest = [.releaseBus, .onDone buf n, .complete true] →
      abortClassOf (rxBegun cap tmo rounds ++ rest) = some .success) ∧
    (∀ ack, rest = [.receiveByte ack tmo none, .releaseBus, .onDone buf n, .complete false] →
      abortClassOf (rxBegun cap tmo rounds ++ rest) = some .hwTimeout) ∧
    (∀ ack b u, rest = [.receiveByte ack tmo (some b), .readStatus u, .releaseBus, .onDone buf n, .complete false] →
      abortClassOf (rxBegun cap tmo rounds ++ rest) = some .protocolViolation)) ∧
  (∀ src c len tmo k (rest : List Event),
    (rest = [.releaseBus, .complete true] → abortClassOf (txBegun src c len tmo k ++ rest) = some .success) ∧
    (∀ d ack, rest = [.transmitByte d ack tmo false, .releaseBus, .complete false] →
      abortClassOf (txBegun src c len tmo k ++ rest) = some .hwTimeout) ∧
    (∀ d ack u, rest = [.transmitByte d ack tmo true, .readStatus u, .releaseBus, .complete false] →
      abortClassOf (txBegun src c len tmo k ++ rest) = some .protocolViolation))

/-! ## Whole invocations -/

/-- R146 shape 2, R142, R143, R278, R54, R59: an accepted HANDLE_RECEIVE whose every byte arrives and is accepted runs to IDLE in one step
for the command and 2·CAP + 4 for its events; its events are shape 2; RXBUF holds the bytes in order and every other byte of host
memory is as before; CAP = 0 is included (R144). `nothing` marks COMPLETE in
the order of arrival (log entry 1), and what stands behind it comes after the invocation. -/
def Obligations.FullReceiveRuns : Prop :=
  ∀ (s : State) (buf cap : Nat) (tmo : Timeout) (rounds : List (Byte × Byte)) (rest : List Input),
    AtPhase .idle s → rounds.length = cap → cap < s.params.idxBound → RxAccepted rounds →
    s.inbox = .command { op := 0#1, buf := buf, capacity := cap, timeout := tmo } :: .answer (.status 0x60#8) ::
      rxAnswers rounds ++ .answer .done :: .answer .done :: .answer .nothing :: rest →
    ∃ t : State, Sys2Proof.core.run (1 + (2 * cap + 4)) s = .next t ∧ AtPhase .idle t ∧ RegistersCleared t ∧
      t.trace = s.trace ++ (rxBegun cap tmo rounds ++ [.releaseBus, .onDone buf cap, .complete true]) ∧
      RxStored t.mem buf rounds ∧ (∀ a, a < buf ∨ buf + cap ≤ a → readByte t.mem a = readByte s.mem a) ∧
      t.busyRefused = s.busyRefused ∧ t.params = s.params ∧ t.inbox = rest

/-- R146 shapes 3 and 4, R135, R249, R244, R243: a receive whose byte at position k fails, or is followed by a status that is not accepted,
ends with result 0 and count k; the k bytes stored before stay, and nothing else of host memory is written. -/
def Obligations.AbortedReceiveRuns : Prop :=
  ∀ (s : State) (buf cap : Nat) (tmo : Timeout) (rounds : List (Byte × Byte)) (rest : List Input)
    (answers : List Input) (failing : List Event),
    AtPhase .idle s → rounds.length < cap → cap < s.params.idxBound → RxAccepted rounds →
    ((∃ x, answers = [.answer (.byte 0#1 x)] ∧
        failing = [.receiveByte (decide (rounds.length + 1 < cap)) tmo none]) ∨
      (∃ b u, ¬RxGood u ∧ answers = [.answer (.byte 1#1 b), .answer (.status u)] ∧
        failing = [.receiveByte (decide (rounds.length + 1 < cap)) tmo (some b), .readStatus u])) →
    s.inbox = .command { op := 0#1, buf := buf, capacity := cap, timeout := tmo } :: .answer (.status 0x60#8) ::
      rxAnswers rounds ++ (answers ++ .answer .done :: .answer .done :: .answer .nothing :: rest) →
    ∃ t : State, Sys2Proof.core.run (1 + (2 * rounds.length + 4 + answers.length)) s = .next t ∧ AtPhase .idle t ∧
      RegistersCleared t ∧
      t.trace = s.trace ++
        (rxBegun cap tmo rounds ++ failing ++ [.releaseBus, .onDone buf rounds.length, .complete false]) ∧
      RxStored t.mem buf rounds ∧
      (∀ a, a < buf ∨ buf + rounds.length ≤ a → readByte t.mem a = readByte s.mem a) ∧ t.inbox = rest

/-- R183 shape 2, R177, R182, R278: an accepted HANDLE_TRANSMIT whose every byte is sent and accepted runs to IDLE in one step for the command
and 2·EFF + 4 for its events; exactly EFF = min(L, C) bytes of the source are sent, in order; no host memory is written. -/
def Obligations.FullTransmitRuns : Prop :=
  ∀ (s : State) (tmo : Timeout) (src : List Byte) (c len : Nat) (rest : List Input),
    AtPhase .idle s → src.length = c → c < s.params.idxBound → len < s.params.lenBound →
    s.inbox = .command { op := 1#1, buf := 0, capacity := 0, timeout := tmo } :: .answer (.status 0xA8#8) ::
      .answer (.source src c len) :: txAnswers (min len c) ++ .answer .done :: .answer .nothing :: rest →
    ∃ t : State, Sys2Proof.core.run (1 + (2 * min len c + 4)) s = .next t ∧ AtPhase .idle t ∧ RegistersCleared t ∧
      t.trace = s.trace ++ (txBegun src c len tmo (min len c) ++ [.releaseBus, .complete true]) ∧
      t.mem = s.mem ∧ t.busyRefused = s.busyRefused ∧ t.params = s.params ∧ t.inbox = rest

/-- R183 shapes 3 and 4, R179, R243, R244: a transmit whose byte at position k fails, or is followed by a status that is not 0xB8, ends with
result 0 after one bus release, with no callback and no host memory written. -/
def Obligations.AbortedTransmitRuns : Prop :=
  ∀ (s : State) (tmo : Timeout) (src : List Byte) (c len k : Nat) (d : Byte) (rest : List Input)
    (answers : List Input) (failing : List Event),
    AtPhase .idle s → src.length = c → c < s.params.idxBound → len < s.params.lenBound → k < min len c → src[k]? = some d →
    ((answers = [.answer (.ok 0#1)] ∧ failing = [.transmitByte d (decide (k + 1 < min len c)) tmo false]) ∨
      (∃ u, u ≠ 0xB8#8 ∧ answers = [.answer (.ok 1#1), .answer (.status u)] ∧
        failing = [.transmitByte d (decide (k + 1 < min len c)) tmo true, .readStatus u])) →
    s.inbox = .command { op := 1#1, buf := 0, capacity := 0, timeout := tmo } :: .answer (.status 0xA8#8) ::
      .answer (.source src c len) :: txAnswers k ++ (answers ++ .answer .done :: .answer .nothing :: rest) →
    ∃ t : State, Sys2Proof.core.run (1 + (2 * k + 4 + answers.length)) s = .next t ∧ AtPhase .idle t ∧
      RegistersCleared t ∧ t.trace = s.trace ++ (txBegun src c len tmo k ++ failing ++ [.releaseBus, .complete false]) ∧
      t.mem = s.mem ∧ t.inbox = rest

/-- R131, R171, R242, R222: a command whose initial status is not its own ends in three steps (the command, the read, COMPLETE) with result 0,
no release, no callback, no host memory touched. -/
def Obligations.NotForHandlerRuns : Prop :=
  ∀ (s : State) (w : CmdWord) (v : Byte) (rest : List Input),
    AtPhase .idle s → w.capacity < s.params.idxBound →
    (w.op = 0#1 → v ≠ 0x60#8) → (w.op = 1#1 → v ≠ 0xA8#8) →
    s.inbox = .command w :: .answer (.status v) :: .answer .nothing :: rest →
    ∃ t : State, Sys2Proof.core.run 3 s = .next t ∧ AtPhase .idle t ∧ RegistersCleared t ∧
      t.trace = s.trace ++ [.readStatus v, .complete false] ∧ t.mem = s.mem ∧ t.inbox = rest

/-- R272: invocations are independent. Two states at IDLE that meet the invariant and agree in host memory, parameters and what is to
arrive run alike for any number of steps, whatever happened before: the same events are added, and all else that can differ in the
end is the earlier trace, its mark and the record of refusals. -/
def Obligations.NothingLeaksBetweenInvocations : Prop :=
  ∀ s s' : State, HandlerInv s → HandlerInv s' → AtPhase .idle s → AtPhase .idle s' → s.mem = s'.mem → s.params = s'.params →
    s.inbox = s'.inbox →
    ∀ (k : Nat) (t : State), Sys2Proof.core.run k s = .next t →
      ∃ (t' : State) (events : List Event), Sys2Proof.core.run k s' = .next t' ∧ forgetHistory t = forgetHistory t' ∧
        t.trace = s.trace ++ events ∧ t'.trace = s'.trace ++ events
end

