-- ==== Sys2Proof/Laws/Decode.lean ====
section
/-! SUPPORT. The status table read in its two directions (spec/30_encoding.md R73, R74). -/

namespace Sys2Proof

/-- The code of a defined status event decodes to the event (and the filler code of UNEXPECTED, which has no row, to UNEXPECTED). -/
theorem decode8_statusCode (ev : StatusEvent) : decode8 (statusCode ev) = ev := by cases ev <;> rfl

/-- A status value decodes to a defined event exactly when it is the event's code. -/
theorem decode8_eq_iff (v : Byte) (ev : StatusEvent) (h : ev ≠ .unexpected) : decode8 v = ev ↔ v = statusCode ev := by
  constructor
  · intro hd
    unfold decode8 at hd
    split at hd
    · rename_i row hrow
      have hmem := List.mem_of_find?_eq_some hrow
      have hv : row.1 = v := by simpa using List.find?_some hrow
      subst hd hv
      revert hmem row
      decide
    · exact absurd hd.symm h
  · rintro rfl
    exact decode8_statusCode ev

end Sys2Proof
end

