-- ==== Sys2Proof/Laws/State.lean ====
section
/-! SUPPORT. What each named operation leaves of every field of State: one lemma per field, each true by rfl, so that no proof unfolds
a record update. -/

namespace Sys2Proof.Machine

/-! ## goto -/

@[simp] theorem goto_phase (p : Phase) (s : State) : (goto p s).phase = phaseCode p := rfl
@[simp] theorem goto_kind (p : Phase) (s : State) : (goto p s).kind = s.kind := rfl
@[simp] theorem goto_pos (p : Phase) (s : State) : (goto p s).pos = s.pos := rfl
@[simp] theorem goto_cap (p : Phase) (s : State) : (goto p s).cap = s.cap := rfl
@[simp] theorem goto_eff (p : Phase) (s : State) : (goto p s).eff = s.eff := rfl
@[simp] theorem goto_latch (p : Phase) (s : State) : (goto p s).latch = s.latch := rfl
@[simp] theorem goto_result (p : Phase) (s : State) : (goto p s).result = s.result := rfl
@[simp] theorem goto_armed (p : Phase) (s : State) : (goto p s).armed = s.armed := rfl
@[simp] theorem goto_tmo (p : Phase) (s : State) : (goto p s).tmo = s.tmo := rfl
@[simp] theorem goto_rxbuf (p : Phase) (s : State) : (goto p s).rxbuf = s.rxbuf := rfl
@[simp] theorem goto_mem (p : Phase) (s : State) : (goto p s).mem = s.mem := rfl
@[simp] theorem goto_txsrc (p : Phase) (s : State) : (goto p s).txsrc = s.txsrc := rfl
@[simp] theorem goto_trace (p : Phase) (s : State) : (goto p s).trace = s.trace := rfl
@[simp] theorem goto_busyRefused (p : Phase) (s : State) : (goto p s).busyRefused = s.busyRefused := rfl
@[simp] theorem goto_invStart (p : Phase) (s : State) : (goto p s).invStart = s.invStart := rfl
@[simp] theorem goto_params (p : Phase) (s : State) : (goto p s).params = s.params := rfl
@[simp] theorem goto_inbox (p : Phase) (s : State) : (goto p s).inbox = s.inbox := rfl

/-! ## emit -/

@[simp] theorem emit_phase (e : Event) (s : State) : (emit e s).phase = s.phase := rfl
@[simp] theorem emit_kind (e : Event) (s : State) : (emit e s).kind = s.kind := rfl
@[simp] theorem emit_pos (e : Event) (s : State) : (emit e s).pos = s.pos := rfl
@[simp] theorem emit_cap (e : Event) (s : State) : (emit e s).cap = s.cap := rfl
@[simp] theorem emit_eff (e : Event) (s : State) : (emit e s).eff = s.eff := rfl
@[simp] theorem emit_latch (e : Event) (s : State) : (emit e s).latch = s.latch := rfl
@[simp] theorem emit_result (e : Event) (s : State) : (emit e s).result = s.result := rfl
@[simp] theorem emit_armed (e : Event) (s : State) : (emit e s).armed = s.armed := rfl
@[simp] theorem emit_tmo (e : Event) (s : State) : (emit e s).tmo = s.tmo := rfl
@[simp] theorem emit_rxbuf (e : Event) (s : State) : (emit e s).rxbuf = s.rxbuf := rfl
@[simp] theorem emit_mem (e : Event) (s : State) : (emit e s).mem = s.mem := rfl
@[simp] theorem emit_txsrc (e : Event) (s : State) : (emit e s).txsrc = s.txsrc := rfl
@[simp] theorem emit_trace (e : Event) (s : State) : (emit e s).trace = s.trace ++ [e] := rfl
@[simp] theorem emit_busyRefused (e : Event) (s : State) : (emit e s).busyRefused = s.busyRefused := rfl
@[simp] theorem emit_invStart (e : Event) (s : State) : (emit e s).invStart = s.invStart := rfl
@[simp] theorem emit_params (e : Event) (s : State) : (emit e s).params = s.params := rfl
@[simp] theorem emit_inbox (e : Event) (s : State) : (emit e s).inbox = s.inbox := rfl

/-! ## finish -/

@[simp] theorem finish_phase (r : Bool) (s : State) : (finish r s).phase = phaseCode (if s.armed then .finRelease else .complete) := rfl
@[simp] theorem finish_kind (r : Bool) (s : State) : (finish r s).kind = s.kind := rfl
@[simp] theorem finish_pos (r : Bool) (s : State) : (finish r s).pos = s.pos := rfl
@[simp] theorem finish_cap (r : Bool) (s : State) : (finish r s).cap = s.cap := rfl
@[simp] theorem finish_eff (r : Bool) (s : State) : (finish r s).eff = s.eff := rfl
@[simp] theorem finish_latch (r : Bool) (s : State) : (finish r s).latch = s.latch := rfl
@[simp] theorem finish_result (r : Bool) (s : State) : (finish r s).result = some r := rfl
@[simp] theorem finish_armed (r : Bool) (s : State) : (finish r s).armed = s.armed := rfl
@[simp] theorem finish_tmo (r : Bool) (s : State) : (finish r s).tmo = s.tmo := rfl
@[simp] theorem finish_rxbuf (r : Bool) (s : State) : (finish r s).rxbuf = s.rxbuf := rfl
@[simp] theorem finish_mem (r : Bool) (s : State) : (finish r s).mem = s.mem := rfl
@[simp] theorem finish_txsrc (r : Bool) (s : State) : (finish r s).txsrc = s.txsrc := rfl
@[simp] theorem finish_trace (r : Bool) (s : State) : (finish r s).trace = s.trace := rfl
@[simp] theorem finish_busyRefused (r : Bool) (s : State) : (finish r s).busyRefused = s.busyRefused := rfl
@[simp] theorem finish_invStart (r : Bool) (s : State) : (finish r s).invStart = s.invStart := rfl
@[simp] theorem finish_params (r : Bool) (s : State) : (finish r s).params = s.params := rfl
@[simp] theorem finish_inbox (r : Bool) (s : State) : (finish r s).inbox = s.inbox := rfl

/-! ## commit -/

@[simp] theorem commit_phase (s : State) : (commit s).phase = s.phase := rfl
@[simp] theorem commit_kind (s : State) : (commit s).kind = s.kind := rfl
@[simp] theorem commit_pos (s : State) : (commit s).pos = some 0 := rfl
@[simp] theorem commit_cap (s : State) : (commit s).cap = s.cap := rfl
@[simp] theorem commit_eff (s : State) : (commit s).eff = s.eff := rfl
@[simp] theorem commit_latch (s : State) : (commit s).latch = s.latch := rfl
@[simp] theorem commit_result (s : State) : (commit s).result = s.result := rfl
@[simp] theorem commit_armed (s : State) : (commit s).armed = true := rfl
@[simp] theorem commit_tmo (s : State) : (commit s).tmo = s.tmo := rfl
@[simp] theorem commit_rxbuf (s : State) : (commit s).rxbuf = s.rxbuf := rfl
@[simp] theorem commit_mem (s : State) : (commit s).mem = s.mem := rfl
@[simp] theorem commit_txsrc (s : State) : (commit s).txsrc = s.txsrc := rfl
@[simp] theorem commit_trace (s : State) : (commit s).trace = s.trace := rfl
@[simp] theorem commit_busyRefused (s : State) : (commit s).busyRefused = s.busyRefused := rfl
@[simp] theorem commit_invStart (s : State) : (commit s).invStart = s.invStart := rfl
@[simp] theorem commit_params (s : State) : (commit s).params = s.params := rfl
@[simp] theorem commit_inbox (s : State) : (commit s).inbox = s.inbox := rfl

/-! ## storeLatch -/

@[simp] theorem storeLatch_phase (buf : Ref) (i : Nat) (b : Byte) (s : State) : (storeLatch buf i b s).phase = s.phase := rfl
@[simp] theorem storeLatch_kind (buf : Ref) (i : Nat) (b : Byte) (s : State) : (storeLatch buf i b s).kind = s.kind := rfl
@[simp] theorem storeLatch_pos (buf : Ref) (i : Nat) (b : Byte) (s : State) : (storeLatch buf i b s).pos = some (nextPos s.params i) := rfl
@[simp] theorem storeLatch_cap (buf : Ref) (i : Nat) (b : Byte) (s : State) : (storeLatch buf i b s).cap = s.cap := rfl
@[simp] theorem storeLatch_eff (buf : Ref) (i : Nat) (b : Byte) (s : State) : (storeLatch buf i b s).eff = s.eff := rfl
@[simp] theorem storeLatch_latch (buf : Ref) (i : Nat) (b : Byte) (s : State) : (storeLatch buf i b s).latch = none := rfl
@[simp] theorem storeLatch_result (buf : Ref) (i : Nat) (b : Byte) (s : State) : (storeLatch buf i b s).result = s.result := rfl
@[simp] theorem storeLatch_armed (buf : Ref) (i : Nat) (b : Byte) (s : State) : (storeLatch buf i b s).armed = s.armed := rfl
@[simp] theorem storeLatch_tmo (buf : Ref) (i : Nat) (b : Byte) (s : State) : (storeLatch buf i b s).tmo = s.tmo := rfl
@[simp] theorem storeLatch_rxbuf (buf : Ref) (i : Nat) (b : Byte) (s : State) : (storeLatch buf i b s).rxbuf = s.rxbuf := rfl
@[simp] theorem storeLatch_mem (buf : Ref) (i : Nat) (b : Byte) (s : State) : (storeLatch buf i b s).mem = writeByte s.mem (rxAddr buf i) b := rfl
@[simp] theorem storeLatch_txsrc (buf : Ref) (i : Nat) (b : Byte) (s : State) : (storeLatch buf i b s).txsrc = s.txsrc := rfl
@[simp] theorem storeLatch_trace (buf : Ref) (i : Nat) (b : Byte) (s : State) : (storeLatch buf i b s).trace = s.trace := rfl
@[simp] theorem storeLatch_busyRefused (buf : Ref) (i : Nat) (b : Byte) (s : State) : (storeLatch buf i b s).busyRefused = s.busyRefused := rfl
@[simp] theorem storeLatch_invStart (buf : Ref) (i : Nat) (b : Byte) (s : State) : (storeLatch buf i b s).invStart = s.invStart := rfl
@[simp] theorem storeLatch_params (buf : Ref) (i : Nat) (b : Byte) (s : State) : (storeLatch buf i b s).params = s.params := rfl
@[simp] theorem storeLatch_inbox (buf : Ref) (i : Nat) (b : Byte) (s : State) : (storeLatch buf i b s).inbox = s.inbox := rfl

/-! ## advancePos -/

@[simp] theorem advancePos_phase (i : Nat) (s : State) : (advancePos i s).phase = s.phase := rfl
@[simp] theorem advancePos_kind (i : Nat) (s : State) : (advancePos i s).kind = s.kind := rfl
@[simp] theorem advancePos_pos (i : Nat) (s : State) : (advancePos i s).pos = some (nextPos s.params i) := rfl
@[simp] theorem advancePos_cap (i : Nat) (s : State) : (advancePos i s).cap = s.cap := rfl
@[simp] theorem advancePos_eff (i : Nat) (s : State) : (advancePos i s).eff = s.eff := rfl
@[simp] theorem advancePos_latch (i : Nat) (s : State) : (advancePos i s).latch = s.latch := rfl
@[simp] theorem advancePos_result (i : Nat) (s : State) : (advancePos i s).result = s.result := rfl
@[simp] theorem advancePos_armed (i : Nat) (s : State) : (advancePos i s).armed = s.armed := rfl
@[simp] theorem advancePos_tmo (i : Nat) (s : State) : (advancePos i s).tmo = s.tmo := rfl
@[simp] theorem advancePos_rxbuf (i : Nat) (s : State) : (advancePos i s).rxbuf = s.rxbuf := rfl
@[simp] theorem advancePos_mem (i : Nat) (s : State) : (advancePos i s).mem = s.mem := rfl
@[simp] theorem advancePos_txsrc (i : Nat) (s : State) : (advancePos i s).txsrc = s.txsrc := rfl
@[simp] theorem advancePos_trace (i : Nat) (s : State) : (advancePos i s).trace = s.trace := rfl
@[simp] theorem advancePos_busyRefused (i : Nat) (s : State) : (advancePos i s).busyRefused = s.busyRefused := rfl
@[simp] theorem advancePos_invStart (i : Nat) (s : State) : (advancePos i s).invStart = s.invStart := rfl
@[simp] theorem advancePos_params (i : Nat) (s : State) : (advancePos i s).params = s.params := rfl
@[simp] theorem advancePos_inbox (i : Nat) (s : State) : (advancePos i s).inbox = s.inbox := rfl

/-! ## takeSource -/

@[simp] theorem takeSource_phase (src : List Byte) (c len : Nat) (s : State) : (takeSource src c len s).phase = s.phase := rfl
@[simp] theorem takeSource_kind (src : List Byte) (c len : Nat) (s : State) : (takeSource src c len s).kind = s.kind := rfl
@[simp] theorem takeSource_pos (src : List Byte) (c len : Nat) (s : State) : (takeSource src c len s).pos = some 0 := rfl
@[simp] theorem takeSource_cap (src : List Byte) (c len : Nat) (s : State) : (takeSource src c len s).cap = some c := rfl
@[simp] theorem takeSource_eff (src : List Byte) (c len : Nat) (s : State) : (takeSource src c len s).eff = some (effLength len c) := rfl
@[simp] theorem takeSource_latch (src : List Byte) (c len : Nat) (s : State) : (takeSource src c len s).latch = s.latch := rfl
@[simp] theorem takeSource_result (src : List Byte) (c len : Nat) (s : State) : (takeSource src c len s).result = s.result := rfl
@[simp] theorem takeSource_armed (src : List Byte) (c len : Nat) (s : State) : (takeSource src c len s).armed = true := rfl
@[simp] theorem takeSource_tmo (src : List Byte) (c len : Nat) (s : State) : (takeSource src c len s).tmo = s.tmo := rfl
@[simp] theorem takeSource_rxbuf (src : List Byte) (c len : Nat) (s : State) : (takeSource src c len s).rxbuf = s.rxbuf := rfl
@[simp] theorem takeSource_mem (src : List Byte) (c len : Nat) (s : State) : (takeSource src c len s).mem = s.mem := rfl
@[simp] theorem takeSource_txsrc (src : List Byte) (c len : Nat) (s : State) : (takeSource src c len s).txsrc = regionFrom 0 src := rfl
@[simp] theorem takeSource_trace (src : List Byte) (c len : Nat) (s : State) : (takeSource src c len s).trace = s.trace := rfl
@[simp] theorem takeSource_busyRefused (src : List Byte) (c len : Nat) (s : State) : (takeSource src c len s).busyRefused = s.busyRefused := rfl
@[simp] theorem takeSource_invStart (src : List Byte) (c len : Nat) (s : State) : (takeSource src c len s).invStart = s.invStart := rfl
@[simp] theorem takeSource_params (src : List Byte) (c len : Nat) (s : State) : (takeSource src c len s).params = s.params := rfl
@[simp] theorem takeSource_inbox (src : List Byte) (c len : Nat) (s : State) : (takeSource src c len s).inbox = s.inbox := rfl

/-! ## clearRegisters -/

@[simp] theorem clearRegisters_phase (s : State) : (clearRegisters s).phase = phaseCode .idle := rfl
@[simp] theorem clearRegisters_kind (s : State) : (clearRegisters s).kind = none := rfl
@[simp] theorem clearRegisters_pos (s : State) : (clearRegisters s).pos = none := rfl
@[simp] theorem clearRegisters_cap (s : State) : (clearRegisters s).cap = none := rfl
@[simp] theorem clearRegisters_eff (s : State) : (clearRegisters s).eff = none := rfl
@[simp] theorem clearRegisters_latch (s : State) : (clearRegisters s).latch = none := rfl
@[simp] theorem clearRegisters_result (s : State) : (clearRegisters s).result = none := rfl
@[simp] theorem clearRegisters_armed (s : State) : (clearRegisters s).armed = false := rfl
@[simp] theorem clearRegisters_tmo (s : State) : (clearRegisters s).tmo = none := rfl
@[simp] theorem clearRegisters_rxbuf (s : State) : (clearRegisters s).rxbuf = none := rfl
@[simp] theorem clearRegisters_mem (s : State) : (clearRegisters s).mem = s.mem := rfl
@[simp] theorem clearRegisters_txsrc (s : State) : (clearRegisters s).txsrc = [] := rfl
@[simp] theorem clearRegisters_trace (s : State) : (clearRegisters s).trace = s.trace := rfl
@[simp] theorem clearRegisters_busyRefused (s : State) : (clearRegisters s).busyRefused = s.busyRefused := rfl
@[simp] theorem clearRegisters_invStart (s : State) : (clearRegisters s).invStart = s.invStart := rfl
@[simp] theorem clearRegisters_params (s : State) : (clearRegisters s).params = s.params := rfl
@[simp] theorem clearRegisters_inbox (s : State) : (clearRegisters s).inbox = s.inbox := rfl

/-! ## applyReset -/

@[simp] theorem applyReset_phase (s : State) : (applyReset s).phase = phaseCode .idle := rfl
@[simp] theorem applyReset_kind (s : State) : (applyReset s).kind = none := rfl
@[simp] theorem applyReset_pos (s : State) : (applyReset s).pos = none := rfl
@[simp] theorem applyReset_cap (s : State) : (applyReset s).cap = none := rfl
@[simp] theorem applyReset_eff (s : State) : (applyReset s).eff = none := rfl
@[simp] theorem applyReset_latch (s : State) : (applyReset s).latch = none := rfl
@[simp] theorem applyReset_result (s : State) : (applyReset s).result = none := rfl
@[simp] theorem applyReset_armed (s : State) : (applyReset s).armed = false := rfl
@[simp] theorem applyReset_tmo (s : State) : (applyReset s).tmo = none := rfl
@[simp] theorem applyReset_rxbuf (s : State) : (applyReset s).rxbuf = none := rfl
@[simp] theorem applyReset_mem (s : State) : (applyReset s).mem = s.mem := rfl
@[simp] theorem applyReset_txsrc (s : State) : (applyReset s).txsrc = [] := rfl
@[simp] theorem applyReset_trace (s : State) : (applyReset s).trace = s.trace := rfl
@[simp] theorem applyReset_busyRefused (s : State) : (applyReset s).busyRefused = s.busyRefused := rfl
@[simp] theorem applyReset_invStart (s : State) : (applyReset s).invStart = s.trace.length := rfl
@[simp] theorem applyReset_params (s : State) : (applyReset s).params = s.params := rfl
@[simp] theorem applyReset_inbox (s : State) : (applyReset s).inbox = s.inbox := rfl

/-! ## acceptReceive -/

@[simp] theorem acceptReceive_phase (buf : Ref) (c : Nat) (t : Timeout) (s : State) : (acceptReceive buf c t s).phase = phaseCode .rxCheck := rfl
@[simp] theorem acceptReceive_kind (buf : Ref) (c : Nat) (t : Timeout) (s : State) : (acceptReceive buf c t s).kind = some .receive := rfl
@[simp] theorem acceptReceive_pos (buf : Ref) (c : Nat) (t : Timeout) (s : State) : (acceptReceive buf c t s).pos = none := rfl
@[simp] theorem acceptReceive_cap (buf : Ref) (c : Nat) (t : Timeout) (s : State) : (acceptReceive buf c t s).cap = some c := rfl
@[simp] theorem acceptReceive_eff (buf : Ref) (c : Nat) (t : Timeout) (s : State) : (acceptReceive buf c t s).eff = none := rfl
@[simp] theorem acceptReceive_latch (buf : Ref) (c : Nat) (t : Timeout) (s : State) : (acceptReceive buf c t s).latch = none := rfl
@[simp] theorem acceptReceive_result (buf : Ref) (c : Nat) (t : Timeout) (s : State) : (acceptReceive buf c t s).result = none := rfl
@[simp] theorem acceptReceive_armed (buf : Ref) (c : Nat) (t : Timeout) (s : State) : (acceptReceive buf c t s).armed = false := rfl
@[simp] theorem acceptReceive_tmo (buf : Ref) (c : Nat) (t : Timeout) (s : State) : (acceptReceive buf c t s).tmo = some t := rfl
@[simp] theorem acceptReceive_rxbuf (buf : Ref) (c : Nat) (t : Timeout) (s : State) : (acceptReceive buf c t s).rxbuf = some buf := rfl
@[simp] theorem acceptReceive_mem (buf : Ref) (c : Nat) (t : Timeout) (s : State) : (acceptReceive buf c t s).mem = s.mem := rfl
@[simp] theorem acceptReceive_txsrc (buf : Ref) (c : Nat) (t : Timeout) (s : State) : (acceptReceive buf c t s).txsrc = s.txsrc := rfl
@[simp] theorem acceptReceive_trace (buf : Ref) (c : Nat) (t : Timeout) (s : State) : (acceptReceive buf c t s).trace = s.trace := rfl
@[simp] theorem acceptReceive_busyRefused (buf : Ref) (c : Nat) (t : Timeout) (s : State) : (acceptReceive buf c t s).busyRefused = s.busyRefused := rfl
@[simp] theorem acceptReceive_invStart (buf : Ref) (c : Nat) (t : Timeout) (s : State) : (acceptReceive buf c t s).invStart = s.trace.length := rfl
@[simp] theorem acceptReceive_params (buf : Ref) (c : Nat) (t : Timeout) (s : State) : (acceptReceive buf c t s).params = s.params := rfl
@[simp] theorem acceptReceive_inbox (buf : Ref) (c : Nat) (t : Timeout) (s : State) : (acceptReceive buf c t s).inbox = s.inbox := rfl

/-! ## acceptTransmit -/

@[simp] theorem acceptTransmit_phase (t : Timeout) (s : State) : (acceptTransmit t s).phase = phaseCode .txCheck := rfl
@[simp] theorem acceptTransmit_kind (t : Timeout) (s : State) : (acceptTransmit t s).kind = some .transmit := rfl
@[simp] theorem acceptTransmit_pos (t : Timeout) (s : State) : (acceptTransmit t s).pos = none := rfl
@[simp] theorem acceptTransmit_cap (t : Timeout) (s : State) : (acceptTransmit t s).cap = none := rfl
@[simp] theorem acceptTransmit_eff (t : Timeout) (s : State) : (acceptTransmit t s).eff = none := rfl
@[simp] theorem acceptTransmit_latch (t : Timeout) (s : State) : (acceptTransmit t s).latch = none := rfl
@[simp] theorem acceptTransmit_result (t : Timeout) (s : State) : (acceptTransmit t s).result = none := rfl
@[simp] theorem acceptTransmit_armed (t : Timeout) (s : State) : (acceptTransmit t s).armed = false := rfl
@[simp] theorem acceptTransmit_tmo (t : Timeout) (s : State) : (acceptTransmit t s).tmo = some t := rfl
@[simp] theorem acceptTransmit_rxbuf (t : Timeout) (s : State) : (acceptTransmit t s).rxbuf = s.rxbuf := rfl
@[simp] theorem acceptTransmit_mem (t : Timeout) (s : State) : (acceptTransmit t s).mem = s.mem := rfl
@[simp] theorem acceptTransmit_txsrc (t : Timeout) (s : State) : (acceptTransmit t s).txsrc = s.txsrc := rfl
@[simp] theorem acceptTransmit_trace (t : Timeout) (s : State) : (acceptTransmit t s).trace = s.trace := rfl
@[simp] theorem acceptTransmit_busyRefused (t : Timeout) (s : State) : (acceptTransmit t s).busyRefused = s.busyRefused := rfl
@[simp] theorem acceptTransmit_invStart (t : Timeout) (s : State) : (acceptTransmit t s).invStart = s.trace.length := rfl
@[simp] theorem acceptTransmit_params (t : Timeout) (s : State) : (acceptTransmit t s).params = s.params := rfl
@[simp] theorem acceptTransmit_inbox (t : Timeout) (s : State) : (acceptTransmit t s).inbox = s.inbox := rfl

/-! ## refuseBusy -/

@[simp] theorem refuseBusy_phase (s : State) : (refuseBusy s).phase = s.phase := rfl
@[simp] theorem refuseBusy_kind (s : State) : (refuseBusy s).kind = s.kind := rfl
@[simp] theorem refuseBusy_pos (s : State) : (refuseBusy s).pos = s.pos := rfl
@[simp] theorem refuseBusy_cap (s : State) : (refuseBusy s).cap = s.cap := rfl
@[simp] theorem refuseBusy_eff (s : State) : (refuseBusy s).eff = s.eff := rfl
@[simp] theorem refuseBusy_latch (s : State) : (refuseBusy s).latch = s.latch := rfl
@[simp] theorem refuseBusy_result (s : State) : (refuseBusy s).result = s.result := rfl
@[simp] theorem refuseBusy_armed (s : State) : (refuseBusy s).armed = s.armed := rfl
@[simp] theorem refuseBusy_tmo (s : State) : (refuseBusy s).tmo = s.tmo := rfl
@[simp] theorem refuseBusy_rxbuf (s : State) : (refuseBusy s).rxbuf = s.rxbuf := rfl
@[simp] theorem refuseBusy_mem (s : State) : (refuseBusy s).mem = s.mem := rfl
@[simp] theorem refuseBusy_txsrc (s : State) : (refuseBusy s).txsrc = s.txsrc := rfl
@[simp] theorem refuseBusy_trace (s : State) : (refuseBusy s).trace = s.trace := rfl
@[simp] theorem refuseBusy_busyRefused (s : State) : (refuseBusy s).busyRefused = true := rfl
@[simp] theorem refuseBusy_invStart (s : State) : (refuseBusy s).invStart = s.invStart := rfl
@[simp] theorem refuseBusy_params (s : State) : (refuseBusy s).params = s.params := rfl
@[simp] theorem refuseBusy_inbox (s : State) : (refuseBusy s).inbox = s.inbox := rfl

end Sys2Proof.Machine
end

