-- ==== Sys2Proof/Laws/Memory.lean ====
section
/-! SUPPORT. The laws of memory: a read after a write, the canonical form is kept, and what a region holds. -/

namespace Sys2Proof.Machine

/-- A byte just written reads as written. -/
@[simp] theorem readByte_writeByte_same (m : Memory) (a : Nat) (v : Byte) : readByte (writeByte m a v) a = some v := by
  induction m with
  | nil => simp [writeByte, readByte]
  | cons c rest ih =>
    obtain ⟨b, w⟩ := c
    unfold writeByte
    split
    · simp [readByte]
    · split
      · simp [readByte]
      · rename_i h
        simp [readByte, h, ih]

/-- A write leaves every other address alone. -/
theorem readByte_writeByte_other (m : Memory) {a b : Nat} (v : Byte) (h : b ≠ a) :
    readByte (writeByte m a v) b = readByte m b := by
  induction m with
  | nil => simp [writeByte, readByte, h.symm]
  | cons c rest ih =>
    obtain ⟨x, w⟩ := c
    unfold writeByte
    split
    · simp [readByte, h.symm]
    · split
      · rename_i hx
        subst hx
        simp [readByte, h.symm]
      · simp [readByte, ih]

/-- The canonical form of a memory with a first cell: the rest is canonical, and lies above it. -/
theorem wf_cons (a : Nat) (v : Byte) (m : Memory) :
    Memory.wf ((a, v) :: m) = true ↔ Memory.wf m = true ∧ ∀ c, m.head? = some c → a < c.1 := by
  cases m with
  | nil => simp [Memory.wf]
  | cons c rest =>
    obtain ⟨b, w⟩ := c
    simp [Memory.wf, and_comm]

/-- The first address after a write is the written one or the old first one. -/
theorem head_writeByte (m : Memory) (a : Nat) (v : Byte) (c : Host.Cell) (h : (writeByte m a v).head? = some c) :
    c.1 = a ∨ ∃ d, m.head? = some d ∧ c.1 = d.1 := by
  cases m with
  | nil => simp [writeByte] at h; simp [← h]
  | cons d rest =>
    obtain ⟨b, w⟩ := d
    unfold writeByte at h
    split at h
    · simp at h; simp [← h]
    · split at h <;> simp at h <;> simp [← h]

/-- A write keeps the canonical form. -/
theorem wf_writeByte (m : Memory) (a : Nat) (v : Byte) (h : Memory.wf m = true) : Memory.wf (writeByte m a v) = true := by
  induction m with
  | nil => simp [writeByte, Memory.wf]
  | cons c rest ih =>
    obtain ⟨b, w⟩ := c
    have hr := (wf_cons b w rest).mp h
    unfold writeByte
    split
    · rename_i hlt
      simp [Memory.wf, hlt, h]
    · split
      · rename_i heq
        subst heq
        exact (wf_cons _ v rest).mpr hr
      · rename_i hge hne
        refine (wf_cons b w _).mpr ⟨ih hr.1, fun c hc => ?_⟩
        rcases head_writeByte rest a v c hc with hc' | ⟨d, hd, hc'⟩
        · omega
        · have := hr.2 d hd
          omega

/-- The byte of a region at an index. -/
theorem readByte_regionFrom (bs : List Byte) (a i : Nat) : readByte (regionFrom a bs) (a + i) = bs[i]? := by
  induction bs generalizing a i with
  | nil => simp [regionFrom, readByte]
  | cons b rest ih =>
    cases i with
    | zero => simp [regionFrom, readByte]
    | succ n =>
      have := ih (a + 1) n
      rw [show a + 1 + n = a + (n + 1) by omega] at this
      simp [regionFrom, readByte, this]

/-- A region is in canonical form. -/
theorem wf_regionFrom (bs : List Byte) (a : Nat) : Memory.wf (regionFrom a bs) = true := by
  induction bs generalizing a with
  | nil => rfl
  | cons b rest ih =>
    refine (wf_cons a b _).mpr ⟨ih (a + 1), fun c hc => ?_⟩
    cases rest with
    | nil => simp [regionFrom] at hc
    | cons b' rest' => simp [regionFrom] at hc; simp [← hc]

/-- The memory of the state after reset is in canonical form. -/
theorem reset_mem_wf : Memory.wf State.reset.mem = true := rfl

end Sys2Proof.Machine
end

