-- ==== Sys2Proof/Laws/Ops.lean ====
section
/-! SUPPORT. What each shared operation can do, said once. -/

namespace Sys2Proof.Machine

/-- The code of a phase is the phase's (10_state.md R23). -/
@[simp] theorem phaseOfCode_phaseCode (p : Phase) : phaseOfCode (phaseCode p) = some p := by cases p <;> rfl

/-- A code that names a phase is that phase's code. -/
theorem phaseCode_of_phaseOfCode {c : BitVec 4} {p : Phase} (h : phaseOfCode c = some p) : c = phaseCode p := by
  revert c p
  decide

/-- Two phases with one code are the same phase. -/
theorem phaseCode_injective {p q : Phase} (h : phaseCode p = phaseCode q) : p = q := by
  simpa using congrArg phaseOfCode h

/-- A code at or above 0xB names no phase. -/
theorem phaseOfCode_reserved {c : BitVec 4} (h : 0xB ≤ c.toNat) : phaseOfCode c = none := by
  revert c
  decide

/-- `withReg` answers a next state only from a register that holds a value. -/
theorem withReg_next {α : Type} {r : Option α} {k : α → Outcome} {t : State} :
    withReg r k = .next t ↔ ∃ a, r = some a ∧ k a = .next t := by
  cases r <;> simp [withReg]

/-- `withReg` on a value. -/
@[simp] theorem withReg_some {α : Type} (a : α) (k : α → Outcome) : withReg (some a) k = k a := rfl

/-- `rx_next` on the values of its registers (41_receive.md R132). -/
theorem rxNext_of {s : State} {pos cap : Nat} (hp : s.pos = some pos) (hc : s.cap = some cap) :
    rxNext s = .next (if pos < cap then goto .rxXfer s else finish true s) := by simp [rxNext, hp, hc]

/-- `tx_next` on the values of its registers (42_transmit.md R173). -/
theorem txNext_of {s : State} {pos eff : Nat} (hp : s.pos = some pos) (he : s.eff = some eff) :
    txNext s = .next (if pos < eff then goto .txXfer s else finish true s) := by simp [txNext, hp, he]

/-- If `rx_next` answers a next state, it moves to RX_XFER or finishes. -/
theorem rxNext_next {s t : State} (h : rxNext s = .next t) :
    ∃ pos cap, s.pos = some pos ∧ s.cap = some cap ∧
      ((pos < cap ∧ t = goto .rxXfer s) ∨ (¬pos < cap ∧ t = finish true s)) := by
  obtain ⟨pos, hp, h⟩ := withReg_next.mp h
  obtain ⟨cap, hc, h⟩ := withReg_next.mp h
  refine ⟨pos, cap, hp, hc, ?_⟩
  by_cases hlt : pos < cap <;> simp [hlt] at h <;> simp [hlt, h]

/-- If `tx_next` answers a next state, it moves to TX_XFER or finishes. -/
theorem txNext_next {s t : State} (h : txNext s = .next t) :
    ∃ pos eff, s.pos = some pos ∧ s.eff = some eff ∧
      ((pos < eff ∧ t = goto .txXfer s) ∨ (¬pos < eff ∧ t = finish true s)) := by
  obtain ⟨pos, hp, h⟩ := withReg_next.mp h
  obtain ⟨eff, he, h⟩ := withReg_next.mp h
  refine ⟨pos, eff, hp, he, ?_⟩
  by_cases hlt : pos < eff <;> simp [hlt] at h <;> simp [hlt, h]

/-- If a command answers a next state, it was accepted at IDLE or refused BUSY_COMMAND elsewhere. -/
theorem takeCommand_next {f : State → State} {s t : State} (h : takeCommand f s = .next t) :
    ∃ p, s.phase = phaseCode p ∧ ((p = .idle ∧ t = f s) ∨ (p ≠ .idle ∧ t = refuseBusy s)) := by
  unfold takeCommand at h
  split at h
  · simp at h
  · rename_i hp
    exact ⟨.idle, phaseCode_of_phaseOfCode hp, .inl ⟨rfl, by simpa using h.symm⟩⟩
  · rename_i p hne hp
    exact ⟨p, phaseCode_of_phaseOfCode hp, .inr ⟨by simpa using hne, by simpa using h.symm⟩⟩

/-- A command at IDLE is accepted. -/
theorem takeCommand_idle {s : State} (h : s.phase = phaseCode .idle) (f : State → State) : takeCommand f s = .next (f s) := by
  simp [takeCommand, h]

/-- A command at any other phase is refused BUSY_COMMAND. -/
theorem takeCommand_busy {s : State} {p : Phase} (h : s.phase = phaseCode p) (hp : p ≠ .idle) (f : State → State) :
    takeCommand f s = .next (refuseBusy s) := by
  cases p <;> simp [takeCommand, h] at hp ⊢

/-- A phase body answers a next state only at its own phase. -/
theorem atPhase_next {p : Phase} {body : Outcome} {s t : State} (h : atPhase p body s = .next t) :
    s.phase = phaseCode p ∧ body = .next t := by
  unfold atPhase at h
  split at h
  · simp at h
  · rename_i q hq
    split at h
    · rename_i e
      exact ⟨e ▸ phaseCode_of_phaseOfCode hq, h⟩
    · simp at h

/-- A phase body at its own phase. -/
theorem atPhase_at {p : Phase} {s : State} (h : s.phase = phaseCode p) (body : Outcome) : atPhase p body s = body := by
  simp [atPhase, h]

/-- Dispatch answers a next state only at a phase that reads the status: the event was expected there, or it was rejected with
`finish(false)` (40_status_decode.md R101). -/
theorem dispatchStatus_next {ev : StatusEvent} {s t : State} (h : dispatchStatus ev s = .next t) :
    ∃ p evs, s.phase = phaseCode p ∧ expectedAt p = some evs ∧
      ((ev ∈ evs ∧ onAccept p s = .next t) ∨ (ev ∉ evs ∧ t = finish false s)) := by
  unfold dispatchStatus at h
  split at h
  · simp at h
  · rename_i p hp
    split at h
    · simp at h
    · rename_i evs he
      refine ⟨p, evs, phaseCode_of_phaseOfCode hp, he, ?_⟩
      split at h
      · rename_i hm
        exact .inl ⟨by simpa using hm, h⟩
      · rename_i hm
        exact .inr ⟨by simpa using hm, by simpa using h.symm⟩

/-- Dispatch at a phase that reads the status (R101). -/
theorem dispatchStatus_at {p : Phase} {evs : List StatusEvent} {s : State} (h : s.phase = phaseCode p)
    (he : expectedAt p = some evs) (ev : StatusEvent) :
    dispatchStatus ev s = if ev ∈ evs then onAccept p s else .next (finish false s) := by
  simp [dispatchStatus, h, he]

/-- The meanings of the status events are dispatch on the decoded event (R101). -/
theorem runStatus_eq (v : Byte) (s : State) : runStatus v s = dispatchStatus (decode8 v) s := by
  unfold runStatus
  split <;> simp_all [execAddrMatchWrite, execDataRxAck, execDataRxNack, execAddrMatchRead, execDataTxAck, execUnexpected]

/-- If READ_STATUS answers a next state, the status event was dispatched after the event was put in the trace (43_interface.md
R211). -/
theorem execReadStatus_next {v : Byte} {s t : State} (h : execReadStatus v s = .next t) :
    dispatchStatus (decode8 v) (emit (.readStatus v) s) = .next t := by
  unfold execReadStatus at h
  split at h
  · simp at h
  · split at h
    · simp at h
    · rwa [runStatus_eq] at h

/-- READ_STATUS at a phase that reads the status (R211). -/
theorem execReadStatus_at {p : Phase} {evs : List StatusEvent} {s : State} (h : s.phase = phaseCode p)
    (he : expectedAt p = some evs) (v : Byte) :
    execReadStatus v s = dispatchStatus (decode8 v) (emit (.readStatus v) s) := by
  simp [execReadStatus, h, he, runStatus_eq]

/-- What a step can be: an instruction run, a reset, or a host write at IDLE. -/
theorem step_next {s t : State} (h : step s = .next t) :
    (∃ i s', fetch s = .run i s' ∧ exec i s' = .next t) ∨ fetch s = .move t := by
  unfold step at h
  split at h
  · rename_i i s' hf
    exact .inl ⟨i, s', hf, h⟩
  · rename_i s' hf
    simp at h
    exact .inr (h ▸ hf)
  · simp at h
  · simp at h

/-- An item that is run decodes to the instruction, and the instruction is well-formed. -/
theorem fetchItem_run {item : Packet} {s s' : State} {i : Instr} (h : fetchItem item s = .run i s') :
    decode item = .ok i ∧ i.wellFormed s.params = true ∧ s' = s := by
  unfold fetchItem at h
  split at h
  · simp at h
  · rename_i j hj
    split at h
    · rename_i hw
      simp at h
      obtain ⟨rfl, rfl⟩ := h
      exact ⟨hj, hw, rfl⟩
    · simp at h

end Sys2Proof.Machine
end

