-- ==== Sys2Proof/Laws/PerInstr.lean ====
section
/-! SUPPORT. Laws stated for every instruction, one lemma per constructor. -/

/-- The encoder writes each instruction in the format its row of the opcode table has (spec/30_encoding.md R70 to R72). -/
def Sys2Proof.Laws.EncodeFormat.Statement (i : Sys2Proof.Instr) : Prop := (Sys2Proof.encode i).format = i.format

theorem Sys2Proof.Laws.EncodeFormat.handleReceive (buf : Sys2Proof.Ref) (capacity : Nat) (timeout : Sys2Proof.Timeout) :
    Sys2Proof.Laws.EncodeFormat.Statement (.handleReceive buf capacity timeout) := rfl

theorem Sys2Proof.Laws.EncodeFormat.handleTransmit (timeout : Sys2Proof.Timeout) :
    Sys2Proof.Laws.EncodeFormat.Statement (.handleTransmit timeout) := rfl

theorem Sys2Proof.Laws.EncodeFormat.addrMatchWrite :
    Sys2Proof.Laws.EncodeFormat.Statement .addrMatchWrite := rfl

theorem Sys2Proof.Laws.EncodeFormat.dataRxAck :
    Sys2Proof.Laws.EncodeFormat.Statement .dataRxAck := rfl

theorem Sys2Proof.Laws.EncodeFormat.dataRxNack :
    Sys2Proof.Laws.EncodeFormat.Statement .dataRxNack := rfl

theorem Sys2Proof.Laws.EncodeFormat.addrMatchRead :
    Sys2Proof.Laws.EncodeFormat.Statement .addrMatchRead := rfl

theorem Sys2Proof.Laws.EncodeFormat.dataTxAck :
    Sys2Proof.Laws.EncodeFormat.Statement .dataTxAck := rfl

theorem Sys2Proof.Laws.EncodeFormat.unexpected (s : Sys2Proof.Byte) :
    Sys2Proof.Laws.EncodeFormat.Statement (.unexpected s) := rfl

theorem Sys2Proof.Laws.EncodeFormat.readStatus (s : Sys2Proof.Byte) :
    Sys2Proof.Laws.EncodeFormat.Statement (.readStatus s) := rfl

theorem Sys2Proof.Laws.EncodeFormat.receiveByte (answer : Option Sys2Proof.Byte) :
    Sys2Proof.Laws.EncodeFormat.Statement (.receiveByte answer) := rfl

theorem Sys2Proof.Laws.EncodeFormat.transmitByte (ok : Bool) :
    Sys2Proof.Laws.EncodeFormat.Statement (.transmitByte ok) := rfl

theorem Sys2Proof.Laws.EncodeFormat.releaseBus :
    Sys2Proof.Laws.EncodeFormat.Statement .releaseBus := rfl

theorem Sys2Proof.Laws.EncodeFormat.onDone :
    Sys2Proof.Laws.EncodeFormat.Statement .onDone := rfl

theorem Sys2Proof.Laws.EncodeFormat.provide (src : List Sys2Proof.Byte) (c : Nat) (len : Nat) :
    Sys2Proof.Laws.EncodeFormat.Statement (.provide src c len) := rfl

theorem Sys2Proof.Laws.EncodeFormat.complete :
    Sys2Proof.Laws.EncodeFormat.Statement .complete := rfl
end

