-- ==== Sys2Proof/Laws/Run.lean ====
section
/-! SUPPORT. Runs of many steps through the host's interface, one step at a time. -/

namespace Sys2Proof.Machine

/-- A run of one step more, on any machine. -/
theorem host_run_succ (M : Host.Core) (k : Nat) (s : M.State) :
    M.run (k + 1) s = match M.step s with
      | .next s' => M.run k s'
      | .fault r => .fault r
      | .refused r => .refused r := rfl

/-- A run that begins with a step to `t` is that step and the run from `t`. -/
theorem core_run_of_step {s t : State} (k : Nat) (h : step s = .next t) :
    Sys2Proof.core.run (k + 1) s = Sys2Proof.core.run k t := by
  have run := host_run_succ Sys2Proof.core k s
  have first : Sys2Proof.core.step s = .next t := h
  rw [first] at run
  exact run

/-- A run that answers a next state begins with a step that does. -/
theorem core_run_next {s t : State} (k : Nat) (h : Sys2Proof.core.run (k + 1) s = .next t) :
    ∃ u, step s = .next u ∧ Sys2Proof.core.run k u = .next t := by
  have run := host_run_succ Sys2Proof.core k s
  rw [h] at run
  cases e : step s with
  | next u =>
    have first : Sys2Proof.core.step s = .next u := e
    rw [first] at run
    exact ⟨u, rfl, run.symm⟩
  | fault f =>
    have first : Sys2Proof.core.step s = .fault f := e
    rw [first] at run
    cases run
  | refused r =>
    have first : Sys2Proof.core.step s = .refused r := e
    rw [first] at run
    cases run

/-- A run of `j + k` steps is a run of `j` steps and a run of `k`. -/
theorem core_run_add {s t u : State} {j k : Nat} (h : Sys2Proof.core.run j s = .next t)
    (h' : Sys2Proof.core.run k t = .next u) : Sys2Proof.core.run (j + k) s = .next u := by
  induction j generalizing s with
  | zero =>
    cases h
    simpa using h'
  | succ j ih =>
    obtain ⟨v, first, rest⟩ := core_run_next j h
    have run := core_run_of_step (j + k) first
    rw [show j + 1 + k = j + k + 1 by omega, run]
    exact ih rest

end Sys2Proof.Machine
end

