-- ==== Sys2Proof/Laws/Step.lean ====
section
/-! SUPPORT. What a step can do, said once: which input it took and which instruction it ran. -/

namespace Sys2Proof.Machine

/-- No item is a move. -/
theorem fetchItem_ne_move {item : Packet} {s t : State} : fetchItem item s ≠ .move t := by
  unfold fetchItem
  split
  · simp
  · split <;> simp

/-- The instruction a step runs: a command or an answer it took from the inbox, or COMPLETE when nothing more arrives. -/
theorem fetch_run {s s' : State} {i : Instr} (h : fetch s = .run i s') :
    ∃ p, s.phase = phaseCode p ∧ i.wellFormed s.params = true ∧
      ((p = .complete ∧ s.inbox = [] ∧ i = .complete ∧ s' = s) ∨
        (∃ w rest, s.inbox = .command w :: rest ∧ i = decodeCmd w ∧ s' = { s with inbox := rest }) ∨
        (∃ a rest code, s.inbox = .answer a :: rest ∧ phaseEvent p = some code ∧ decodeEvt code a = .ok i ∧
          s' = { s with inbox := rest })) := by
  unfold fetch at h
  split at h
  · simp at h
  rename_i p hp
  refine ⟨p, phaseCode_of_phaseOfCode hp, ?_⟩
  unfold fetchAt at h
  split at h
  · rename_i hin
    unfold fetchSilent at h
    split at h
    · obtain ⟨hd, hw, hs⟩ := fetchItem_run h
      exact ⟨hw, .inl ⟨rfl, hin, by simpa [decode, decodeEvt] using hd.symm, hs⟩⟩
    · simp at h
    · simp at h
  · simp at h
  · rename_i w rest hin
    obtain ⟨hd, hw, hs⟩ := fetchItem_run h
    exact ⟨hw, .inr (.inl ⟨w, rest, hin, by simpa [decode] using hd.symm, hs⟩)⟩
  · rename_i a rest hin
    unfold fetchAnswer at h
    split at h
    · rename_i code hcode
      obtain ⟨hd, hw, hs⟩ := fetchItem_run h
      exact ⟨hw, .inr (.inr ⟨a, rest, code, hin, hcode, by simpa [decode] using hd, hs⟩)⟩
    · simp at h
  · unfold fetchHostWrite at h
    split at h <;> simp at h

/-- A step that runs no instruction is a reset or a host write at IDLE. -/
theorem fetch_move {s t : State} (h : fetch s = .move t) :
    ∃ p, s.phase = phaseCode p ∧
      ((∃ rest, s.inbox = .reset :: rest ∧ t = applyReset { s with inbox := rest }) ∨
        (p = .idle ∧ ∃ addr v rest, s.inbox = .hostWrite addr v :: rest ∧
          t = { s with inbox := rest, mem := writeByte s.mem addr v })) := by
  unfold fetch at h
  split at h
  · simp at h
  rename_i p hp
  refine ⟨p, phaseCode_of_phaseOfCode hp, ?_⟩
  unfold fetchAt at h
  split at h
  · unfold fetchSilent at h
    split at h
    · exact absurd h fetchItem_ne_move
    · simp at h
    · simp at h
  · rename_i rest hin
    simp at h
    exact .inl ⟨rest, hin, h.symm⟩
  · exact absurd h fetchItem_ne_move
  · unfold fetchAnswer at h
    split at h
    · exact absurd h fetchItem_ne_move
    · simp at h
  · rename_i addr v rest hin
    unfold fetchHostWrite at h
    split at h
    · simp at h
      exact .inr ⟨rfl, addr, v, rest, hin, h.symm⟩
    · simp at h

/-- What a step can do: run COMPLETE when nothing more arrives, run a command or an answer taken from the inbox, reset, or let the
host write at IDLE. -/
theorem step_cases {s t : State} (h : step s = .next t) :
    ∃ p, s.phase = phaseCode p ∧
      ((p = .complete ∧ s.inbox = [] ∧ execComplete s = .next t) ∨
        (∃ w rest, s.inbox = .command w :: rest ∧ (decodeCmd w).wellFormed s.params = true ∧
          exec (decodeCmd w) { s with inbox := rest } = .next t) ∨
        (∃ a rest code i, s.inbox = .answer a :: rest ∧ phaseEvent p = some code ∧ decodeEvt code a = .ok i ∧
          i.wellFormed s.params = true ∧ exec i { s with inbox := rest } = .next t) ∨
        (∃ rest, s.inbox = .reset :: rest ∧ t = applyReset { s with inbox := rest }) ∨
        (p = .idle ∧ ∃ addr v rest, s.inbox = .hostWrite addr v :: rest ∧
          t = { s with inbox := rest, mem := writeByte s.mem addr v })) := by
  rcases step_next h with ⟨i, s', hf, hx⟩ | hf
  · obtain ⟨p, hp, hw, hcase⟩ := fetch_run hf
    refine ⟨p, hp, ?_⟩
    rcases hcase with ⟨hc, hin, rfl, rfl⟩ | ⟨w, rest, hin, rfl, rfl⟩ | ⟨a, rest, code, hin, hcode, hd, rfl⟩
    · exact .inl ⟨hc, hin, hx⟩
    · exact .inr (.inl ⟨w, rest, hin, hw, hx⟩)
    · exact .inr (.inr (.inl ⟨a, rest, code, i, hin, hcode, hd, hw, hx⟩))
  · obtain ⟨p, hp, hcase⟩ := fetch_move hf
    exact ⟨p, hp, hcase.elim (fun h => .inr (.inr (.inr (.inl h)))) (fun h => .inr (.inr (.inr (.inr h))))⟩

end Sys2Proof.Machine
end

