-- ==== Sys2Proof/Tests/Slice0.lean ====
section
/-! SUPPORT. Small tests, each on one step or one function, with results taken from spec/95_test_vectors.md or worked out by hand
from the rule named; and, for every statement that has hypotheses, concrete values that meet them all together. -/

namespace Sys2Proof.Machine.Tests

open Sys2Proof Sys2Proof.Machine

/-! ## Small states -/

/-- A receive into a 2-byte buffer at address 100, with timeout 9, that has committed and stands at position `pos`. -/
def rx (p : Phase) (pos : Nat) : State :=
  { State.reset with
    phase := phaseCode p, kind := some .receive, pos := some pos, cap := some 2, armed := true, tmo := some 9,
    rxbuf := some 100 }

/-- The same receive with a byte in LATCH, waiting for its status. -/
def rxHolding (pos : Nat) (b : Byte) : State := { rx .rxVerify pos with latch := some b }

/-- W4's transmit: L = 5 and C = 2, so EFF = 2, at position `pos`. -/
def tx (p : Phase) (pos : Nat) : State :=
  { State.reset with
    phase := phaseCode p, kind := some .transmit, pos := some pos, cap := some 2, eff := some 2, armed := true, tmo := some 9,
    txsrc := regionFrom 0 [0x41#8, 0x42#8] }

/-- A receive that was accepted and has not yet read its status. -/
def rxNew (cap : Nat) : State :=
  { State.reset with
    phase := phaseCode .rxCheck, kind := some .receive, cap := some cap, tmo := some 9, rxbuf := some 100 }

/-- A transmit that was accepted and holds no source, at TX_CHECK or TX_PROVIDE. -/
def txNew (p : Phase) : State := { State.reset with phase := phaseCode p, kind := some .transmit, tmo := some 9 }

/-- The next state of an outcome. -/
def nextOf : Outcome → Option State
  | .next s => some s
  | .fault _ => none
  | .refused _ => none

/-- The fault of an outcome. -/
def faultOf : Outcome → Option Fault
  | .next _ => none
  | .fault f => some f
  | .refused _ => none

/-- The refusal of an outcome. -/
def refusalOf : Outcome → Option Refusal
  | .next _ => none
  | .fault _ => none
  | .refused r => some r

/-- The registers V46 and V55 show. -/
structure Shown where
  phase : BitVec 4
  armed : Bool
  pos : Option Nat
  cap : Option Nat
  eff : Option Nat
  latch : Option Byte
  result : Option Bool
deriving DecidableEq, Repr

/-- Those registers of the next state of an outcome. -/
def registers (o : Outcome) : Option Shown := (nextOf o).map fun s =>
  { phase := s.phase, armed := s.armed, pos := s.pos, cap := s.cap, eff := s.eff, latch := s.latch, result := s.result }

/-- The last event of the trace after an outcome. -/
def lastEvent (o : Outcome) : Option Event := (nextOf o).bind fun s => s.trace.getLast?

/-! ## Well-formedness: one ill-formed term for each check (30_encoding.md R78, IDX_W = 8, LEN_W = 16) -/

theorem test_wellFormed_capacity_in_range : (Instr.handleReceive 0 255 9).wellFormed State.reset.params = true := by decide
theorem test_wellFormed_refuses_capacity : (Instr.handleReceive 0 256 9).wellFormed State.reset.params = false := by decide
theorem test_wellFormed_refuses_defined_status : (Instr.unexpected 0x60#8).wellFormed State.reset.params = false := by decide
theorem test_wellFormed_refuses_source_length :
    (Instr.provide [0x41#8] 2 1).wellFormed State.reset.params = false := by decide
theorem test_wellFormed_refuses_source_capacity :
    (Instr.provide [0x41#8, 0x42#8] 2 1).wellFormed { idxW := 1, lenW := 16 } = false := by decide
theorem test_wellFormed_refuses_declared_length :
    (Instr.provide [0x41#8] 1 65536).wellFormed State.reset.params = false := by decide
theorem test_wellFormed_longest_declared_length :
    (Instr.provide [0x41#8] 1 65535).wellFormed State.reset.params = true := by decide

/-! ## Decoding: every row's word, written out bit by bit (R70, R72, R73) -/

theorem test_decode_handleReceive :
    decode (.cmd { op := 0b0#1, buf := 100, capacity := 2, timeout := 9 }) = .ok (.handleReceive 100 2 9) := by rfl
theorem test_decode_handleTransmit :
    decode (.cmd { op := 0b1#1, buf := 0, capacity := 0, timeout := 9 }) = .ok (.handleTransmit 9) := by rfl
theorem test_decode_addrMatchWrite : decode (.status8 0b01100000#8) = .ok .addrMatchWrite := by rfl
theorem test_decode_dataRxAck : decode (.status8 0b10000000#8) = .ok .dataRxAck := by rfl
theorem test_decode_dataRxNack : decode (.status8 0b10001000#8) = .ok .dataRxNack := by rfl
theorem test_decode_addrMatchRead : decode (.status8 0b10101000#8) = .ok .addrMatchRead := by rfl
theorem test_decode_dataTxAck : decode (.status8 0b10111000#8) = .ok .dataTxAck := by rfl
/-- V1, V3 to V5, V7, V9, V10, V12, V14 to V18: every other value of the vectors is UNEXPECTED, whatever bits it shares. -/
theorem test_decode_unexpected :
    ∀ s ∈ [0x00#8, 0x61#8, 0x62#8, 0x68#8, 0x81#8, 0x89#8, 0xA0#8, 0xA9#8, 0xB9#8, 0xC0#8, 0xC8#8, 0xF8#8, 0xFF#8],
      decodeStatus s = .unexpected s := by decide
theorem test_decode_readStatus : decode (.evt 0b0001#4 (.status 0x60#8)) = .ok (.readStatus 0x60#8) := by rfl
theorem test_decode_receiveByte : decode (.evt 0b0010#4 (.byte 0b1#1 0x5A#8)) = .ok (.receiveByte (some 0x5A#8)) := by rfl
/-- R72: with OK = 0 the byte has no meaning. -/
theorem test_decode_receiveByte_fail : decode (.evt 0b0010#4 (.byte 0b0#1 0x5A#8)) = .ok (.receiveByte none) := by rfl
theorem test_decode_transmitByte : decode (.evt 0b0011#4 (.ok 0b1#1)) = .ok (.transmitByte true) := by rfl
theorem test_decode_releaseBus : decode (.evt 0b0100#4 .done) = .ok .releaseBus := by rfl
theorem test_decode_onDone : decode (.evt 0b0101#4 .done) = .ok .onDone := by rfl
theorem test_decode_provide :
    decode (.evt 0b0110#4 (.source [0x41#8, 0x42#8] 2 5)) = .ok (.provide [0x41#8, 0x42#8] 2 5) := by rfl
theorem test_decode_complete : decode (.evt 0b0111#4 .nothing) = .ok .complete := by rfl
/-- R78: the code after the last defined one is refused by name. -/
theorem test_decode_reserved : decode (.evt 0b1000#4 .done) = .error (.reservedEvtCode 0x8#4) := by rfl
theorem test_decode_wrong_answer : decode (.evt 0b0100#4 .nothing) = .error (.answerMismatch 0x4#4) := by rfl
theorem test_encode_provide : encode (.provide [0x41#8] 1 7) = .evt 0b0110#4 (.source [0x41#8] 1 7) := by rfl

/-! ## The host's two questions about a word of the opcode table -/

theorem test_tableWord_status : decodeTableWord 8 0x88 = some .dataRxNack := by decide
theorem test_tableWord_event : decodeTableWord 8 0x6 = some (.provide [] 0 0) := by decide
theorem test_tableWord_command : decodeTableWord 8 0x1 = some (.handleTransmit 0) := by decide
theorem test_tableWord_unexpected : decodeTableWord 8 0x08 = some (.unexpected 0x08#8) := by decide
/-- The placed command is the first to run after reset, and it is accepted (R170). -/
theorem test_placed_command_runs : registers (step (State.reset.withFetchWord 8 0x1)) =
    some ⟨0x4#4, false, none, none, none, none, none⟩ := by decide
/-- The placed status is answered at RX_VERIFY and its byte is stored (R134). -/
theorem test_placed_status_runs : registers (step (State.reset.withFetchWord 8 0x80)) =
    some ⟨0x8#4, true, some 1, some 1, none, none, some true⟩ := by decide
/-- COMPLETE is placed at its phase and runs (R139). -/
theorem test_placed_complete_runs : registers (step (State.reset.withFetchWord 8 0x7)) =
    some ⟨0x0#4, false, none, none, none, none, none⟩ := by decide

/-! ## Computed values (R76) -/

/-- V19 to V22. -/
theorem test_ackRx : [ackRx 0 1, ackRx 0 2, ackRx 1 2, ackRx 0 3, ackRx 1 3, ackRx 2 3] =
    [false, true, false, true, true, false] := by decide
/-- V23, V24: the sum does not wrap. -/
theorem test_ackRx_top : [ackRx 253 255, ackRx 254 255] = [true, false] := by decide
/-- V26, V27. -/
theorem test_ackTx : [ackTx 0 1, ackTx 0 2, ackTx 1 2] = [false, true, false] := by decide
/-- V28 to V33. -/
theorem test_effLength : [effLength 0 0, effLength 0 5, effLength 5 0, effLength 3 5, effLength 5 5, effLength 5 2] =
    [0, 0, 0, 3, 5, 2] := by decide
/-- V33a to V33c: the declared length is not cut to 8 bits. -/
theorem test_effLength_wide : [effLength 300 255, effLength 65535 1, effLength 256 200] = [255, 1, 200] := by decide

/-! ## Memory -/

/-- A write keeps the addresses rising and replaces what was there. -/
theorem test_writeByte : writeByte (writeByte (writeByte [] 5 0x01#8) 3 0x02#8) 5 0x03#8 = [(3, 0x02#8), (5, 0x03#8)] := by decide

/-! ## Instructions, one step each -/

/-- V46, first row. -/
theorem test_handleReceive : registers (exec (.handleReceive 100 1 9) State.reset) =
    some ⟨0x1#4, false, none, some 1, none, none, none⟩ := by decide
/-- V58: a command from inside the ON_DONE callback is refused and recorded, and no register is changed. -/
theorem test_handleReceive_busy : nextOf (exec (.handleReceive 7 2 9) (rx .finDone 2)) =
    some { rx .finDone 2 with busyRefused := true } := by decide
/-- V55, first row. -/
theorem test_handleTransmit : registers (exec (.handleTransmit 9) State.reset) =
    some ⟨0x4#4, false, none, none, none, none, none⟩ := by decide
/-- V57: at RX_XFER. -/
theorem test_handleTransmit_busy : nextOf (exec (.handleTransmit 9) (rx .rxXfer 0)) =
    some { rx .rxXfer 0 with busyRefused := true } := by decide
/-- V46, second row. -/
theorem test_addrMatchWrite : registers (exec .addrMatchWrite (rxNew 1)) =
    some ⟨0x2#4, true, some 0, some 1, none, none, none⟩ := by decide
/-- V35: a buffer of no bytes is full at once. -/
theorem test_addrMatchWrite_empty : registers (exec .addrMatchWrite (rxNew 0)) =
    some ⟨0x8#4, true, some 0, some 0, none, none, some true⟩ := by decide
/-- W8: the byte before the last goes to RXBUF[0], and the loop goes on. -/
theorem test_dataRxAck : (nextOf (exec .dataRxAck (rxHolding 0 0x7E#8))).map (fun s => (s.mem, s.pos, s.latch, s.phase)) =
    some ([(100, 0x7E#8)], some 1, none, 0x2#4) := by decide
/-- V2's row for 0x80 at TX_CHECK: not for this handler, so no finalization (R241). -/
theorem test_dataRxAck_rejected : registers (exec .dataRxAck (txNew .txCheck)) =
    some ⟨0xA#4, false, none, none, none, none, some false⟩ := by decide
/-- W8: the last byte goes to RXBUF[1], and the receive succeeds. -/
theorem test_dataRxNack : (nextOf (exec .dataRxNack (rxHolding 1 0x7F#8))).map (fun s => (s.mem, s.pos, s.result, s.phase)) =
    some ([(101, 0x7F#8)], some 2, some true, 0x8#4) := by decide
/-- V38: the same status in the middle of the buffer is accepted and the loop goes on. -/
theorem test_dataRxNack_middle : registers (exec .dataRxNack (rxHolding 0 0x01#8)) =
    some ⟨0x2#4, true, some 1, some 2, none, none, none⟩ := by decide
/-- V55, second row. -/
theorem test_addrMatchRead : registers (exec .addrMatchRead (txNew .txCheck)) =
    some ⟨0x5#4, false, none, none, none, none, none⟩ := by decide
/-- V11: 0xA8 at RX_VERIFY is a protocol violation; the byte is not stored. -/
theorem test_addrMatchRead_rejected : (nextOf (exec .addrMatchRead (rxHolding 0 0x20#8))).map
    (fun s => (s.mem, s.pos, s.result, s.phase)) = some ([], some 0, some false, 0x8#4) := by decide
/-- V55: the status after the first byte. -/
theorem test_dataTxAck : registers (exec .dataTxAck (tx .txVerify 0)) =
    some ⟨0x6#4, true, some 1, some 2, some 2, none, none⟩ := by decide
/-- V55: the status after the last byte. -/
theorem test_dataTxAck_last : registers (exec .dataTxAck (tx .txVerify 1)) =
    some ⟨0x8#4, true, some 2, some 2, some 2, none, some true⟩ := by decide
/-- V52: 0xC0 after the last byte is a failure. -/
theorem test_unexpected : registers (exec (.unexpected 0xC0#8) (tx .txVerify 1)) =
    some ⟨0x8#4, true, some 1, some 2, some 2, none, some false⟩ := by decide
/-- R100: no status is read at RX_XFER. -/
theorem test_unexpected_not_read : refusalOf (exec (.unexpected 0x00#8) (rx .rxXfer 0)) = some .statusNotRead := by decide
/-- W3: the wrong status 0x60 after a byte: discarded, the event in the trace. -/
theorem test_readStatus : (nextOf (exec (.readStatus 0x60#8) (rxHolding 1 0x20#8))).map
    (fun s => (s.mem, s.pos, s.phase, s.trace)) = some ([], some 1, 0x8#4, [.readStatus 0x60#8]) := by decide
/-- V61's phase emits PROVIDE only (R23). -/
theorem test_readStatus_not_emitted : refusalOf (exec (.readStatus 0x60#8) (txNew .txProvide)) = some .eventNotEmitted := by decide
/-- V46, third row, with W8's last byte: ACK is 0. -/
theorem test_receiveByte : (lastEvent (exec (.receiveByte (some 0x7F#8)) (rx .rxXfer 1)),
    registers (exec (.receiveByte (some 0x7F#8)) (rx .rxXfer 1))) =
    (some (.receiveByte false 9 (some 0x7F#8)), some ⟨0x3#4, true, some 1, some 2, none, some 0x7F#8, none⟩) := by decide
/-- V45: no byte at position 1. -/
theorem test_receiveByte_fail : registers (exec (.receiveByte none) (rx .rxXfer 1)) =
    some ⟨0x8#4, true, some 1, some 2, none, none, some false⟩ := by decide
/-- W4: the first byte, with ACK 1. -/
theorem test_transmitByte : (lastEvent (exec (.transmitByte true) (tx .txXfer 0)),
    registers (exec (.transmitByte true) (tx .txXfer 0))) =
    (some (.transmitByte 0x41#8 true 9 true), some ⟨0x7#4, true, some 0, some 2, some 2, none, none⟩) := by decide
/-- V51, at W4's second byte: a failure ends in finalization. -/
theorem test_transmitByte_fail : (lastEvent (exec (.transmitByte false) (tx .txXfer 1)),
    registers (exec (.transmitByte false) (tx .txXfer 1))) =
    (some (.transmitByte 0x42#8 false 9 false), some ⟨0x8#4, true, some 1, some 2, some 2, none, some false⟩) := by decide
/-- V46: a receive goes on to the callback. -/
theorem test_releaseBus_receive : (nextOf (exec .releaseBus (rx .finRelease 2))).map (fun s => (s.phase, s.trace)) =
    some (0x9#4, [.releaseBus]) := by decide
/-- V55: a transmit has none. -/
theorem test_releaseBus_transmit : (nextOf (exec .releaseBus (tx .finRelease 2))).map (fun s => (s.phase, s.trace)) =
    some (0xA#4, [.releaseBus]) := by decide
/-- W3: the count is the number of bytes stored. -/
theorem test_onDone : (nextOf (exec .onDone (rx .finDone 1))).map (fun s => (s.phase, s.trace)) =
    some (0xA#4, [.onDone 100 1]) := by decide
/-- W4: the clamp. -/
theorem test_provide : registers (exec (.provide [0x41#8, 0x42#8] 2 5) (txNew .txProvide)) =
    some ⟨0x6#4, true, some 0, some 2, some 2, none, none⟩ := by decide
/-- V48: an empty source is sent at once. -/
theorem test_provide_empty : registers (exec (.provide [] 0 3) (txNew .txProvide)) =
    some ⟨0x8#4, true, some 0, some 0, some 0, none, some true⟩ := by decide
/-- V46, last row. -/
theorem test_complete : nextOf (exec .complete { rx .complete 1 with result := some true }) =
    some { State.reset with trace := [.complete true] } := by decide

/-! ## Steps that are no instruction -/

/-- V59: reset in the middle of a receive. -/
theorem test_reset : nextOf (step { rxHolding 0 0x01#8 with inbox := [.reset] }) = some State.reset := by decide
/-- R259 at COMPLETE: a command that arrives there is refused and recorded, and COMPLETE is still to come. -/
theorem test_busy_at_complete :
    nextOf (step { rx .complete 2 with
      result := some true, inbox := [.command { op := 1#1, buf := 0, capacity := 0, timeout := 9 }] }) =
    some { rx .complete 2 with result := some true, busyRefused := true } := by decide
/-- W7: a command that comes after COMPLETE stays for IDLE. -/
theorem test_command_after_complete :
    (nextOf (step { rx .complete 2 with
      result := some true, inbox := [.answer .nothing, .command { op := 1#1, buf := 0, capacity := 0, timeout := 9 }] })).map
      (fun s => (s.phase, s.inbox)) =
    some (0x0#4, [.command { op := 1#1, buf := 0, capacity := 0, timeout := 9 }]) := by decide
/-- V61: a source that never comes. -/
theorem test_stuck : faultOf (step (txNew .txProvide)) = some .stuck := by decide
/-- U10: the host has no such move. -/
theorem test_hostWrite_refused : refusalOf (step { rx .rxXfer 0 with inbox := [.hostWrite 100 0x00#8] }) =
    some .hostWriteDuringInvocation := by decide
/-- R241: the class of W3's events (R243), of V39's (R244) and of W2's (R242). -/
theorem test_abortClass :
    [abortClassOf [.readStatus 0x60#8, .receiveByte true 9 (some 0x10#8), .readStatus 0x60#8, .releaseBus, .onDone 100 0,
      .complete false],
     abortClassOf [.readStatus 0x60#8, .receiveByte true 9 none, .releaseBus, .onDone 100 0, .complete false],
     abortClassOf [.readStatus 0xA8#8, .complete false]] =
    [some .protocolViolation, some .hwTimeout, some .notForHandler] := by decide

/-! ## Witnesses: for each statement with hypotheses, values that meet them all -/

/-- ResetAbandonsInvocation: V59's state with the reset arriving. -/
theorem witness_ResetAbandonsInvocation :
    AtPhase .rxVerify { rxHolding 0 0x01#8 with inbox := [.reset] } ∧
      { rxHolding 0 0x01#8 with inbox := [.reset] }.inbox = .reset :: [] := ⟨rfl, rfl⟩

/-- DecodeAndEncodeAgree: a well-formed instruction at the top of its operands' ranges, and an item with a field that has no
meaning. -/
theorem witness_DecodeAndEncodeAgree :
    (Instr.provide [0x41#8] 1 65535).wellFormed State.reset.params = true ∧
      decode (.cmd { op := 1#1, buf := 7, capacity := 3, timeout := 9 }) = .ok (.handleTransmit 9) := ⟨by decide, rfl⟩

/-- ReservedEventCodesRefused: the two ends of the reserved codes and 0x0. -/
theorem witness_ReservedEventCodesRefused :
    ((0x0#4 = 0x0#4 ∨ 0x8 ≤ (0x0#4).toNat) ∧ (0x8#4 = 0x0#4 ∨ 0x8 ≤ (0x8#4).toNat)) ∧
      (0xF#4 = 0x0#4 ∨ 0x8 ≤ (0xF#4).toNat) := by decide

/-- StepRunsDecodedInstruction, first clause: a command at IDLE, and one at COMPLETE. -/
theorem witness_StepRunsDecodedInstruction_command :
    let w : CmdWord := { op := 0#1, buf := 100, capacity := 255, timeout := 9 }
    let s : State := { State.reset with inbox := [.command w] }
    let s' : State := { rx .complete 2 with result := some true, inbox := [.command w] }
    decode (.cmd w) = .ok (.handleReceive 100 255 9) ∧ (Instr.handleReceive 100 255 9).wellFormed s.params = true ∧
      (AtPhase .idle s ∧ s.inbox = .command w :: []) ∧
      (AtPhase .complete s' ∧ s'.inbox = .command w :: [] ∧ (Instr.handleReceive 100 255 9).wellFormed s'.params = true) :=
  ⟨rfl, by decide, ⟨rfl, rfl⟩, rfl, rfl, by decide⟩

/-- StepRunsDecodedInstruction, second clause: a byte answered at RX_XFER, and the mark that COMPLETE is next. -/
theorem witness_StepRunsDecodedInstruction_answer :
    let s : State := { rx .rxXfer 0 with inbox := [.answer (.byte 1#1 0x7E#8)] }
    let s' : State := { rx .complete 2 with result := some true, inbox := [.answer .nothing] }
    (AtPhase .rxXfer s ∧ s.inbox = .answer (.byte 1#1 0x7E#8) :: [] ∧ phaseEvent .rxXfer = some 0x2#4 ∧
      decode (.evt 0x2#4 (.byte 1#1 0x7E#8)) = .ok (.receiveByte (some 0x7E#8)) ∧
      (Instr.receiveByte (some 0x7E#8)).wellFormed s.params = true) ∧
    (AtPhase .complete s' ∧ s'.inbox = .answer .nothing :: [] ∧ phaseEvent .complete = some 0x7#4 ∧
      decode (.evt 0x7#4 .nothing) = .ok .complete ∧ Instr.complete.wellFormed s'.params = true) :=
  ⟨⟨rfl, rfl, rfl, rfl, rfl⟩, rfl, rfl, rfl, rfl, rfl⟩

/-- StepRunsDecodedInstruction, third clause: COMPLETE with nothing to arrive. -/
theorem witness_StepRunsDecodedInstruction_complete :
    AtPhase .complete { rx .complete 2 with result := some true } ∧
      { rx .complete 2 with result := some true }.inbox = [] := ⟨rfl, rfl⟩

/-- StatusAnswerRunsItsEvent. -/
theorem witness_StatusAnswerRunsItsEvent :
    AtPhase .txCheck (txNew .txCheck) ∧ expectedAt .txCheck = some [.addrMatchRead] := ⟨rfl, rfl⟩

/-- ReservedPhaseFaults, at both ends of the reserved codes. -/
theorem witness_ReservedPhaseFaults :
    0xB ≤ { State.reset with phase := 0xB#4 }.phase.toNat ∧ 0xB ≤ { State.reset with phase := 0xF#4 }.phase.toNat := by decide

/-- SilenceEndsOrSticks: both clauses. -/
theorem witness_SilenceEndsOrSticks :
    (AtPhase .idle State.reset ∧ State.reset.inbox = []) ∧
      (AtPhase .txProvide (txNew .txProvide) ∧ (txNew .txProvide).inbox = [] ∧ Phase.txProvide ≠ .idle ∧
        Phase.txProvide ≠ .complete) := ⟨⟨rfl, rfl⟩, rfl, rfl, by decide, by decide⟩

/-- HostWritesOnlyAtIdle: both clauses, the second at RX_XFER and at COMPLETE. -/
theorem witness_HostWritesOnlyAtIdle :
    (AtPhase .idle { State.reset with inbox := [.hostWrite 100 0xEE#8] } ∧
      { State.reset with inbox := [.hostWrite 100 0xEE#8] }.inbox = .hostWrite 100 0xEE#8 :: []) ∧
    (AtPhase .rxXfer { rx .rxXfer 0 with inbox := [.hostWrite 100 0xEE#8] } ∧
      { rx .rxXfer 0 with inbox := [.hostWrite 100 0xEE#8] }.inbox = .hostWrite 100 0xEE#8 :: [] ∧ Phase.rxXfer ≠ .idle) ∧
    (AtPhase .complete { rx .complete 2 with inbox := [.hostWrite 100 0xEE#8] } ∧
      { rx .complete 2 with inbox := [.hostWrite 100 0xEE#8] }.inbox = .hostWrite 100 0xEE#8 :: [] ∧
      Phase.complete ≠ .idle) := ⟨⟨rfl, rfl⟩, ⟨rfl, rfl, by decide⟩, rfl, rfl, by decide⟩

/-- HandleReceiveEffect and HandleTransmitEffect: at IDLE, and at the two ends of the other phases. -/
theorem witness_CommandEffects :
    AtPhase .idle State.reset ∧ AtPhase .rxCheck (rxNew 2) ∧ AtPhase .complete (rx .complete 2) := ⟨rfl, rfl, rfl⟩

/-- BusyCommandTurnedAway: V57, and a command at COMPLETE. -/
theorem witness_BusyCommandTurnedAway :
    let w : CmdWord := { op := 1#1, buf := 0, capacity := 0, timeout := 9 }
    let s : State := { rx .rxXfer 0 with inbox := [.command w] }
    let s' : State := { rx .complete 2 with result := some true, inbox := [.command w] }
    (AtPhase .rxXfer s ∧ Phase.rxXfer ≠ .idle ∧ s.inbox = .command w :: [] ∧ (decodeCmd w).wellFormed s.params = true) ∧
      (AtPhase .complete s' ∧ Phase.complete ≠ .idle ∧ s'.inbox = .command w :: [] ∧
        (decodeCmd w).wellFormed s'.params = true) := ⟨⟨rfl, by decide, rfl, rfl⟩, rfl, by decide, rfl, rfl⟩

/-- RxNextLoopTest: below the capacity, and at it. -/
theorem witness_RxNextLoopTest :
    ((rx .rxVerify 1).pos = some 1 ∧ (rx .rxVerify 1).cap = some 2 ∧ 1 < 2) ∧
      ((rx .rxVerify 2).pos = some 2 ∧ (rx .rxVerify 2).cap = some 2 ∧ ¬2 < 2) := ⟨⟨rfl, rfl, by decide⟩, rfl, rfl, by decide⟩

/-- TxNextLoopTest: below the effective length, and at it. -/
theorem witness_TxNextLoopTest :
    ((tx .txVerify 1).pos = some 1 ∧ (tx .txVerify 1).eff = some 2 ∧ 1 < 2) ∧
      ((tx .txVerify 2).pos = some 2 ∧ (tx .txVerify 2).eff = some 2 ∧ ¬2 < 2) := ⟨⟨rfl, rfl, by decide⟩, rfl, rfl, by decide⟩

/-- AddrMatchWriteEffect: capacities 0 and 1, and a phase that rejects. -/
theorem witness_AddrMatchWriteEffect :
    (AtPhase .rxCheck (rxNew 0) ∧ (rxNew 0).cap = some 0) ∧ (AtPhase .rxCheck (rxNew 1) ∧ (rxNew 1).cap = some 1) ∧
      AtPhase .rxVerify (rxHolding 0 0x20#8) := ⟨⟨rfl, rfl⟩, ⟨rfl, rfl⟩, rfl⟩

/-- DataRxAckEffect, DataRxNackEffect and RxVerifyBody: the last position, for both outcomes of the check. -/
theorem witness_DataRxEffects :
    let s := rxHolding 1 0x7F#8
    AtPhase .rxVerify s ∧ s.armed = true ∧ s.rxbuf = some 100 ∧ s.pos = some 1 ∧ s.cap = some 2 ∧ s.latch = some 0x7F#8 ∧
      1 < 2 ∧ 2 < s.params.idxBound := ⟨rfl, rfl, rfl, rfl, rfl, rfl, by decide, by decide⟩

/-- DataRxAckEffect and DataRxNackEffect: the position before the last. -/
theorem witness_DataRxEffects_middle :
    let s := rxHolding 0 0x7E#8
    AtPhase .rxVerify s ∧ s.rxbuf = some 100 ∧ s.pos = some 0 ∧ s.cap = some 2 ∧ s.latch = some 0x7E#8 ∧
      0 < 2 ∧ 2 < s.params.idxBound := ⟨rfl, rfl, rfl, rfl, rfl, by decide, by decide⟩

/-- The status effects' rejecting clauses, at each phase that reads the status. -/
theorem witness_RejectedStatus :
    AtPhase .rxCheck (rxNew 2) ∧ AtPhase .rxVerify (rxHolding 0 0x20#8) ∧ AtPhase .txCheck (txNew .txCheck) ∧
      AtPhase .txVerify (tx .txVerify 0) := ⟨rfl, rfl, rfl, rfl⟩

/-- AddrMatchReadEffect and TxCheckBody. -/
theorem witness_AddrMatchReadEffect : AtPhase .txCheck (txNew .txCheck) ∧ (txNew .txCheck).armed = false := ⟨rfl, rfl⟩

/-- DataTxAckEffect and TxVerifyBody: the last position. -/
theorem witness_DataTxAckEffect :
    let s := tx .txVerify 1
    AtPhase .txVerify s ∧ s.armed = true ∧ s.pos = some 1 ∧ s.eff = some 2 ∧ 1 < 2 ∧ 2 < s.params.idxBound :=
  ⟨rfl, rfl, rfl, rfl, by decide, by decide⟩

/-- DataTxAckEffect and TxVerifyBody: the position before the last. -/
theorem witness_DataTxAckEffect_middle :
    let s := tx .txVerify 0
    AtPhase .txVerify s ∧ s.armed = true ∧ s.pos = some 0 ∧ s.eff = some 2 ∧ 0 < 2 ∧ 2 < s.params.idxBound :=
  ⟨rfl, rfl, rfl, rfl, by decide, by decide⟩

/-- DispatchTable: an accepted pair and a rejected one, both of 0x60. -/
theorem witness_DispatchTable :
    (AtPhase .rxCheck (rxNew 2) ∧ expectedAt .rxCheck = some [.addrMatchWrite] ∧ decode8 0x60#8 ∈ [StatusEvent.addrMatchWrite]) ∧
      (AtPhase .txVerify (tx .txVerify 0) ∧ expectedAt .txVerify = some [.dataTxAck] ∧
        decode8 0x60#8 ∉ [StatusEvent.dataTxAck]) := ⟨⟨rfl, rfl, by decide⟩, rfl, rfl, by decide⟩

/-- RxCheckBody, with a capacity of 0 and of 1. -/
theorem witness_RxCheckBody :
    (AtPhase .rxCheck (rxNew 0) ∧ (rxNew 0).armed = false ∧ (rxNew 0).cap = some 0) ∧
      (AtPhase .rxCheck (rxNew 1) ∧ (rxNew 1).armed = false ∧ (rxNew 1).cap = some 1) := ⟨⟨rfl, rfl, rfl⟩, rfl, rfl, rfl⟩

/-- ReceiveByteBody, at the last position. -/
theorem witness_ReceiveByteBody :
    let s := rx .rxXfer 1
    AtPhase .rxXfer s ∧ s.armed = true ∧ s.pos = some 1 ∧ s.cap = some 2 ∧ s.tmo = some 9 := ⟨rfl, rfl, rfl, rfl, rfl⟩

/-- TransmitByteBody, at the last position. -/
theorem witness_TransmitByteBody :
    let s := tx .txXfer 1
    AtPhase .txXfer s ∧ s.armed = true ∧ s.pos = some 1 ∧ s.eff = some 2 ∧ s.tmo = some 9 ∧
      readByte s.txsrc 1 = some 0x42#8 := ⟨rfl, rfl, rfl, rfl, rfl, rfl⟩

/-- ReleaseBusBody, on receive and on transmit. -/
theorem witness_ReleaseBusBody :
    (AtPhase .finRelease (rx .finRelease 2) ∧ (rx .finRelease 2).kind = some .receive) ∧
      (AtPhase .finRelease (tx .finRelease 2) ∧ (tx .finRelease 2).kind = some .transmit) := ⟨⟨rfl, rfl⟩, rfl, rfl⟩

/-- OnDoneBody, with the count 0 of V39 and a full buffer. -/
theorem witness_OnDoneBody :
    (AtPhase .finDone (rx .finDone 0) ∧ (rx .finDone 0).rxbuf = some 100 ∧ (rx .finDone 0).pos = some 0) ∧
      (AtPhase .finDone (rx .finDone 2) ∧ (rx .finDone 2).rxbuf = some 100 ∧ (rx .finDone 2).pos = some 2) :=
  ⟨⟨rfl, rfl, rfl⟩, rfl, rfl, rfl⟩

/-- ProvideBody: W4's answer, and V48's, where the effective length is 0. -/
theorem witness_ProvideBody :
    let s := txNew .txProvide
    (AtPhase .txProvide s ∧ [0x41#8, 0x42#8].length = 2 ∧ 2 < s.params.idxBound ∧ 5 < s.params.lenBound ∧ 0 < min 5 2) ∧
      (AtPhase .txProvide s ∧ ([] : List Byte).length = 0 ∧ 0 < s.params.idxBound ∧ 3 < s.params.lenBound ∧ ¬0 < min 3 0) :=
  ⟨⟨rfl, rfl, by decide, by decide, by decide⟩, rfl, rfl, by decide, by decide, by decide⟩

/-- CompleteBody. -/
theorem witness_CompleteBody :
    AtPhase .complete { rx .complete 2 with result := some true } ∧
      { rx .complete 2 with result := some true }.result = some true := ⟨rfl, rfl⟩

/-- AckIntentIsFalseOnlyAtLast: the last position and the one before. -/
theorem witness_AckIntentIsFalseOnlyAtLast : 254 < 255 ∧ 253 < 255 := by decide

/-- EffectiveLengthIsClamped: a length below the capacity, equal to it and above. -/
theorem witness_EffectiveLengthIsClamped : 3 < 5 ∧ 5 ≤ 5 ∧ 2 ≤ 5 := by decide

/-- StepEmitsItsPhasesEvent, PhaseSuccessors, MemoryFrame and TimeoutPassedUnchanged: a step that stores a byte. -/
theorem witness_StepFrames_store :
    let s := { rxHolding 1 0x7F#8 with inbox := [.answer (.status 0x88#8)] }
    AtPhase .rxVerify s ∧ (nextOf (step s)).isSome = true ∧ s.inbox.head? ≠ some .reset := ⟨rfl, by decide, by decide⟩

/-- The same, and TimeoutPassedUnchanged's second clause: a step that sends a byte, carrying TMO. -/
theorem witness_StepFrames_transmit :
    let s := { tx .txXfer 0 with inbox := [.answer (.ok 1#1)] }
    AtPhase .txXfer s ∧
      (nextOf (step s)).map (·.trace) = some (s.trace ++ [.transmitByte 0x41#8 true 9 true]) := ⟨rfl, by decide⟩

/-- TimeoutPassedUnchanged's first clause: a step that asks for a byte, carrying TMO. -/
theorem witness_StepFrames_receive :
    let s := { rx .rxXfer 0 with inbox := [.answer (.byte 0#1 0x00#8)] }
    AtPhase .rxXfer s ∧ (nextOf (step s)).map (·.trace) = some (s.trace ++ [.receiveByte true 9 none]) := ⟨rfl, by decide⟩

/-- PhaseSuccessors with the invariant: a command taken and a reset, and both ways in which a phase stays. -/
theorem witness_PhaseSuccessors :
    let w : CmdWord := { op := 1#1, buf := 0, capacity := 0, timeout := 9 }
    let inv (s : State) : Prop := HandlerInv s ∧ AtPhase .idle s ∧ (nextOf (step s)).isSome = true
    inv { State.reset with inbox := [.command w] } ∧ inv { State.reset with inbox := [.reset] } ∧
      PhaseStays .idle { State.reset with inbox := [.hostWrite 100 0xEE#8] } ∧
      PhaseStays .rxXfer { rx .rxXfer 0 with inbox := [.command w] } := by
  have cleared : ∀ inbox, HandlerInv { State.reset with inbox := inbox } :=
    fun _ => ⟨rfl, rfl, .idle, rfl, ⟨rfl, rfl, rfl, rfl, rfl, rfl, rfl, rfl⟩, rfl, rfl⟩
  exact ⟨⟨cleared _, rfl, by decide⟩, ⟨cleared _, rfl, by decide⟩, .inr ⟨rfl, 100, 0xEE#8, rfl⟩,
    .inl ⟨by decide, _, rfl⟩⟩

/-- MemoryFrame's third case: a host write at IDLE. -/
theorem witness_StepFrames_hostWrite :
    let s := { State.reset with inbox := [.hostWrite 100 0xEE#8] }
    AtPhase .idle s ∧ (nextOf (step s)).map (·.mem) = some [(100, 0xEE#8)] := ⟨rfl, by decide⟩

/-- InstructionMemoryFrame: an instruction that stores nothing, and one that stores at RXBUF[1]. -/
theorem witness_InstructionMemoryFrame :
    (StoresNothing .releaseBus ∧ (nextOf (exec .releaseBus (rx .finRelease 2))).isSome = true) ∧
      ((nextOf (exec .dataRxNack (rxHolding 1 0x7F#8))).isSome = true ∧ (rxHolding 1 0x7F#8).rxbuf = some 100 ∧
        (rxHolding 1 0x7F#8).pos = some 1) := ⟨⟨by simp [StoresNothing], by decide⟩, by decide, rfl, rfl⟩

/-- RegisterFrame: an instruction of each format that answers a next state. -/
theorem witness_RegisterFrame :
    (nextOf (exec (.handleTransmit 9) State.reset)).isSome = true ∧
      (nextOf (exec .dataTxAck (tx .txVerify 1))).isSome = true ∧
      (nextOf (exec (.transmitByte true) (tx .txXfer 1))).isSome = true ∧
      (nextOf (exec .onDone (rx .finDone 1))).isSome = true := by decide

/-! ### States that meet the invariants -/

/-- W8's receive at RX_XFER for its second byte, with the events that led there and the first byte stored. -/
def rxSecond : State :=
  { rx .rxXfer 1 with
    mem := [(100, 0x7E#8)], trace := [.readStatus 0x60#8, .receiveByte true 9 (some 0x7E#8), .readStatus 0x80#8] }

theorem rxSecond_inv : HandlerInv rxSecond :=
  ⟨rfl, rfl, .rxXfer, rfl, ⟨rfl, rfl, ⟨9, rfl⟩, ⟨100, rfl⟩, 2, rfl, by decide⟩, rfl, rfl, rfl, 1, 2, ⟨rfl, rfl, by decide⟩,
    by decide⟩

theorem phase_unique {s : State} {p q : Phase} (h : AtPhase p s) (h' : AtPhase q s) : q = p :=
  phaseCode_injective (h'.symm.trans h)

theorem rxSecond_traceInv : TraceInv rxSecond := by
  refine ⟨rxSecond_inv, Nat.zero_le _, fun p hp => ?_⟩
  obtain rfl := phase_unique (s := rxSecond) (p := .rxXfer) rfl hp
  refine ⟨100, 2, 9, [(0x7E#8, 0x80#8)], ⟨rfl, rfl, rfl, rfl, by decide, ?_, ?_⟩, rfl⟩
  · simp [RxAccepted, RxGood]; decide
  · intro i r h
    cases i with
    | zero => simp at h; subst h; rfl
    | succ i => simp at h

/-- A receive of V36 at COMPLETE: the initial check failed. -/
def rxFailed : State :=
  { rxNew 2 with phase := phaseCode .complete, result := some false, trace := [.readStatus 0x00#8] }

theorem rxFailed_traceInv : TraceInv rxFailed := by
  refine ⟨⟨rfl, rfl, .complete, rfl, false, rfl, .inr (.inr (.inl ⟨rfl, rfl, ⟨rfl, rfl, ⟨9, rfl⟩, ⟨100, rfl⟩, 2, rfl, by decide⟩,
    rfl, rfl⟩))⟩, Nat.zero_le _, fun p hp => ?_⟩
  obtain rfl := phase_unique (s := rxFailed) (p := .complete) rfl hp
  exact ⟨false, rfl, .inl ⟨rfl, rfl, 0x00#8, rfl, by decide, by decide⟩⟩

/-- V37's receive at COMPLETE. -/
def rxFinished : State :=
  { rx .complete 1 with
    cap := some 1, result := some true, mem := [(100, 0x5A#8)],
    trace := [.readStatus 0x60#8, .receiveByte false 9 (some 0x5A#8), .readStatus 0x88#8, .releaseBus, .onDone 100 1] }

theorem rxFinished_traceInv : TraceInv rxFinished := by
  refine ⟨⟨rfl, rfl, .complete, rfl, true, rfl, .inl ⟨rfl, ⟨rfl, rfl, ⟨9, rfl⟩, ⟨100, rfl⟩, 1, rfl, by decide⟩, 1, 1,
    ⟨rfl, rfl, by decide⟩, by decide⟩⟩, Nat.zero_le _, fun p hp => ?_⟩
  obtain rfl := phase_unique (s := rxFinished) (p := .complete) rfl hp
  refine ⟨true, rfl, .inr (.inl ⟨rfl, rfl, 100, 1, 9, [(0x5A#8, 0x88#8)], _, ⟨rfl, rfl, rfl, rfl, by decide, ?_, ?_⟩,
    .inl ⟨rfl, rfl, rfl⟩, rfl⟩)⟩
  · simp [RxAccepted, RxGood]; decide
  · intro i r h
    cases i with
    | zero => simp at h; subst h; rfl
    | succ i => simp at h

/-- V50's transmit at COMPLETE. -/
def txFinished : State :=
  { tx .complete 1 with
    cap := some 1, eff := some 1, txsrc := [(0, 0xC3#8)], result := some true,
    trace := [.readStatus 0xA8#8, .provide [0xC3#8] 1 1, .transmitByte 0xC3#8 false 9 true, .readStatus 0xB8#8, .releaseBus] }

theorem txFinished_traceInv : TraceInv txFinished := by
  refine ⟨⟨rfl, rfl, .complete, rfl, true, rfl, .inr (.inl ⟨rfl, ⟨rfl, rfl, rfl, 9, rfl⟩, 1, 1,
    ⟨rfl, rfl, by decide, 1, rfl, by decide, by decide, ?_⟩, by decide⟩)⟩, Nat.zero_le _, fun p hp => ?_⟩
  · intro i hi
    obtain rfl : i = 0 := by omega
    exact ⟨0xC3#8, rfl⟩
  · obtain rfl := phase_unique (s := txFinished) (p := .complete) rfl hp
    exact ⟨true, rfl, .inr (.inr ⟨rfl, rfl, [0xC3#8], 1, 1, 9, 1, _, ⟨rfl, rfl, rfl, rfl, rfl, rfl, by decide⟩,
      .inl ⟨rfl, rfl, rfl⟩, rfl⟩)⟩

/-- StepKeepsInvariant and StepKeepsTraceInvariant: an answer and a command that are taken, from states that meet both. -/
theorem witness_StepKeepsInvariants :
    (TraceInv rxFinished ∧ HandlerInv rxFinished ∧ (nextOf (step rxFinished)).isSome = true) ∧
      (HandlerInv { State.reset with inbox := [.reset] } ∧ (nextOf (step { State.reset with inbox := [.reset] })).isSome = true) :=
  ⟨⟨rxFinished_traceInv, rxFinished_traceInv.1, by decide⟩,
    ⟨rfl, rfl, .idle, rfl, ⟨rfl, rfl, rfl, rfl, rfl, rfl, rfl, rfl⟩, rfl, rfl⟩, by decide⟩

/-- InvariantGivesR43: a state at RX_XFER, one of a transmit, and one at IDLE. -/
theorem witness_InvariantGivesR43 :
    (TraceInv rxSecond ∧ AtPhase .rxXfer rxSecond ∧ rxSecond.armed = true) ∧
      (TraceInv txFinished ∧ txFinished.kind = some .transmit ∧ txFinished.eff = some 1 ∧ txFinished.pos = some 1) :=
  ⟨⟨rxSecond_traceInv, rfl, rfl⟩, txFinished_traceInv, rfl, rfl, rfl⟩

/-- EveryAnswerHasAMeaning: a failed byte at RX_XFER, and COMPLETE. -/
theorem witness_EveryAnswerHasAMeaning :
    (HandlerInv rxSecond ∧ AtPhase .rxXfer rxSecond ∧ phaseEvent .rxXfer = some 0x2#4 ∧
      decode (.evt 0x2#4 (.byte 0#1 0x00#8)) = .ok (.receiveByte none) ∧
      (Instr.receiveByte none).wellFormed rxSecond.params = true) ∧
    (HandlerInv rxFinished ∧ AtPhase .complete rxFinished ∧ rxFinished.inbox = []) :=
  ⟨⟨rxSecond_inv, rfl, rfl, rfl, rfl⟩, rxFinished_traceInv.1, rfl, rfl⟩

/-- ReceiveHasOneOfFourShapes: a receive that filled its buffer, and one that was not for the handler. -/
theorem witness_ReceiveHasOneOfFourShapes :
    (TraceInv rxFinished ∧ AtPhase .complete rxFinished ∧ rxFinished.kind = some .receive ∧ rxFinished.cap = some 1 ∧
      rxFinished.tmo = some 9 ∧ rxFinished.rxbuf = some 100) ∧
    (TraceInv rxFailed ∧ AtPhase .complete rxFailed ∧ rxFailed.kind = some .receive ∧ rxFailed.cap = some 2 ∧
      rxFailed.tmo = some 9 ∧ rxFailed.rxbuf = some 100) :=
  ⟨⟨rxFinished_traceInv, rfl, rfl, rfl, rfl, rfl⟩, rxFailed_traceInv, rfl, rfl, rfl, rfl, rfl⟩

/-- W3's receive at FIN_DONE, k = 1: one byte accepted, one discarded. -/
def rxReporting : State :=
  { rx .finDone 1 with
    latch := some 0x20#8, result := some false, mem := [(100, 0x10#8)],
    trace := [.readStatus 0x60#8, .receiveByte true 9 (some 0x10#8), .readStatus 0x80#8, .receiveByte false 9 (some 0x20#8),
      .readStatus 0x60#8, .releaseBus] }

theorem rxReporting_traceInv : TraceInv rxReporting := by
  refine ⟨⟨rfl, rfl, .finDone, rfl, rfl, false, rfl, ⟨rfl, rfl, ⟨9, rfl⟩, ⟨100, rfl⟩, 2, rfl, by decide⟩, 1, 2,
    ⟨rfl, rfl, by decide⟩, by decide⟩, Nat.zero_le _, fun p hp => ?_⟩
  obtain rfl := phase_unique (s := rxReporting) (p := .finDone) rfl hp
  refine ⟨false, rfl, 100, 2, 9, [(0x10#8, 0x80#8)], _, ⟨rfl, rfl, rfl, rfl, by decide, ?_, ?_⟩,
    .inr (.inr ⟨rfl, by decide, 0x20#8, 0x60#8, by simp [RxGood]; decide, rfl⟩), rfl⟩
  · simp [RxAccepted, RxGood]; decide
  · intro i r h
    cases i with
    | zero => simp at h; subst h; rfl
    | succ i => simp at h

/-- CallbackFindsAcceptedBytes: W3, at index 0, the last one accepted. -/
theorem witness_CallbackFindsAcceptedBytes :
    TraceInv rxReporting ∧ AtPhase .finDone rxReporting ∧ rxReporting.rxbuf = some 100 ∧
      (acceptedBytes (invEvents rxReporting))[0]? = some 0x10#8 := ⟨rxReporting_traceInv, rfl, rfl, by decide⟩

/-- TransmitHasOneOfFourShapes. -/
theorem witness_TransmitHasOneOfFourShapes :
    TraceInv txFinished ∧ AtPhase .complete txFinished ∧ txFinished.kind = some .transmit ∧ txFinished.tmo = some 9 :=
  ⟨txFinished_traceInv, rfl, rfl, rfl⟩

/-- W3's receive at COMPLETE: one byte accepted, one discarded. -/
def rxAborted : State :=
  { rxReporting with phase := phaseCode .complete, trace := rxReporting.trace ++ [.onDone 100 1] }

theorem rxAborted_traceInv : TraceInv rxAborted := by
  refine ⟨⟨rfl, rfl, .complete, rfl, false, rfl, .inl ⟨rfl, ⟨rfl, rfl, ⟨9, rfl⟩, ⟨100, rfl⟩, 2, rfl, by decide⟩, 1, 2,
    ⟨rfl, rfl, by decide⟩, by decide⟩⟩, Nat.zero_le _, fun p hp => ?_⟩
  obtain rfl := phase_unique (s := rxAborted) (p := .complete) rfl hp
  refine ⟨false, rfl, .inr (.inl ⟨rfl, rfl, 100, 2, 9, [(0x10#8, 0x80#8)], _, ⟨rfl, rfl, rfl, rfl, by decide, ?_, ?_⟩,
    .inr (.inr ⟨rfl, by decide, 0x20#8, 0x60#8, by simp [RxGood]; decide, rfl⟩), rfl⟩)⟩
  · simp [RxAccepted, RxGood]; decide
  · intro i r h
    cases i with
    | zero => simp at h; subst h; rfl
    | succ i => simp at h

/-- V54's transmit at COMPLETE: the initial check failed. -/
def txFailed : State :=
  { txNew .complete with result := some false, trace := [.readStatus 0xB8#8] }

theorem txFailed_traceInv : TraceInv txFailed := by
  refine ⟨⟨rfl, rfl, .complete, rfl, false, rfl, .inr (.inr (.inr ⟨rfl, rfl, ⟨rfl, rfl, rfl, 9, rfl⟩, rfl, rfl, rfl⟩))⟩,
    Nat.zero_le _, fun p hp => ?_⟩
  obtain rfl := phase_unique (s := txFailed) (p := .complete) rfl hp
  exact ⟨false, rfl, .inl ⟨rfl, rfl, 0xB8#8, rfl, by decide, by decide⟩⟩

/-- ReleaseExactlyOnce: a receive and a transmit whose initial check passed, and one of each whose check failed. -/
theorem witness_ReleaseExactlyOnce :
    (TraceInv rxFinished ∧ AtPhase .complete rxFinished ∧ rxFinished.kind = some .receive) ∧
      (TraceInv rxFailed ∧ AtPhase .complete rxFailed ∧ rxFailed.kind = some .receive) ∧
      (TraceInv txFinished ∧ AtPhase .complete txFinished ∧ txFinished.kind = some .transmit) ∧
      (TraceInv txFailed ∧ AtPhase .complete txFailed ∧ txFailed.kind = some .transmit) :=
  ⟨⟨rxFinished_traceInv, rfl, rfl⟩, ⟨rxFailed_traceInv, rfl, rfl⟩, ⟨txFinished_traceInv, rfl, rfl⟩, txFailed_traceInv, rfl, rfl⟩

/-- ResultAndCount: a receive with result true (V37), one with result false after an accepted byte (W3), and one whose initial check
failed. -/
theorem witness_ResultAndCount :
    (TraceInv rxFinished ∧ AtPhase .complete rxFinished ∧ rxFinished.kind = some .receive ∧ rxFinished.cap = some 1 ∧
      rxFinished.result = some true ∧ acceptedBytes (invEvents rxFinished) = [0x5A#8]) ∧
    (TraceInv rxAborted ∧ AtPhase .complete rxAborted ∧ rxAborted.kind = some .receive ∧ rxAborted.cap = some 2 ∧
      rxAborted.result = some false ∧ acceptedBytes (invEvents rxAborted) = [0x10#8]) ∧
    (TraceInv rxFailed ∧ AtPhase .complete rxFailed ∧ rxFailed.kind = some .receive ∧ rxFailed.cap = some 2 ∧
      (invEvents rxFailed).head? ≠ some (.readStatus 0x60#8)) :=
  ⟨⟨rxFinished_traceInv, rfl, rfl, rfl, rfl, by decide⟩, ⟨rxAborted_traceInv, rfl, rfl, rfl, rfl, by decide⟩,
    rxFailed_traceInv, rfl, rfl, rfl, by decide⟩

/-- AbortClassOfEveryEnding: each ending of a receive of V39's length. -/
theorem witness_AbortClassOfEveryEnding :
    ∃ success failed rejected : List Event,
      success = [.releaseBus, .onDone 100 1, .complete true] ∧
      failed = [.receiveByte false 9 none, .releaseBus, .onDone 100 0, .complete false] ∧
      rejected = [.receiveByte false 9 (some 0x00#8), .readStatus 0xA0#8, .releaseBus, .onDone 100 0, .complete false] :=
  ⟨_, _, _, rfl, rfl, rfl⟩

/-! ### Whole invocations -/

/-- FullReceiveRuns: W8's inputs. -/
theorem witness_FullReceiveRuns :
    let rounds : List (Byte × Byte) := [(0x7E#8, 0x80#8), (0x7F#8, 0x88#8)]
    let inbox : List Input :=
      .command { op := 0#1, buf := 100, capacity := 2, timeout := 9 } :: .answer (.status 0x60#8) ::
        rxAnswers rounds ++ .answer .done :: .answer .done :: .answer .nothing :: []
    let s : State := { State.reset with inbox := inbox }
    AtPhase .idle s ∧ rounds.length = 2 ∧ 2 < s.params.idxBound ∧ RxAccepted rounds ∧ s.inbox = inbox :=
  ⟨rfl, rfl, by decide, by simp [RxAccepted, RxGood]; decide, rfl⟩

/-- FullReceiveRuns: V35's inputs, a capacity of 0. -/
theorem witness_FullReceiveRuns_empty :
    let inbox : List Input :=
      .command { op := 0#1, buf := 100, capacity := 0, timeout := 9 } :: .answer (.status 0x60#8) ::
        rxAnswers [] ++ .answer .done :: .answer .done :: .answer .nothing :: []
    let s : State := { State.reset with inbox := inbox }
    AtPhase .idle s ∧ ([] : List (Byte × Byte)).length = 0 ∧ 0 < s.params.idxBound ∧ RxAccepted [] ∧ s.inbox = inbox :=
  ⟨rfl, rfl, by decide, by simp [RxAccepted], rfl⟩

/-- AbortedReceiveRuns, first kind: V45's inputs. -/
theorem witness_AbortedReceiveRuns_timeout :
    let rounds : List (Byte × Byte) := [(0x31#8, 0x80#8)]
    let answers : List Input := [.answer (.byte 0#1 0x00#8)]
    let failing : List Event := [.receiveByte (decide (rounds.length + 1 < 3)) 9 none]
    let inbox : List Input :=
      .command { op := 0#1, buf := 100, capacity := 3, timeout := 9 } :: .answer (.status 0x60#8) ::
        rxAnswers rounds ++ (answers ++ .answer .done :: .answer .done :: .answer .nothing :: [])
    let s : State := { State.reset with inbox := inbox }
    AtPhase .idle s ∧ rounds.length < 3 ∧ 3 < s.params.idxBound ∧ RxAccepted rounds ∧
      (∃ x, answers = [.answer (.byte 0#1 x)] ∧ failing = [.receiveByte (decide (rounds.length + 1 < 3)) 9 none]) ∧
      s.inbox = inbox :=
  ⟨rfl, by decide, by decide, by simp [RxAccepted, RxGood]; decide, ⟨0x00#8, rfl, rfl⟩, rfl⟩

/-- AbortedReceiveRuns, second kind: V41's inputs, at the last position. -/
theorem witness_AbortedReceiveRuns_status :
    let rounds : List (Byte × Byte) := [(0x01#8, 0x80#8)]
    let answers : List Input := [.answer (.byte 1#1 0x02#8), .answer (.status 0xA0#8)]
    let failing : List Event := [.receiveByte (decide (rounds.length + 1 < 2)) 9 (some 0x02#8), .readStatus 0xA0#8]
    let inbox : List Input :=
      .command { op := 0#1, buf := 100, capacity := 2, timeout := 9 } :: .answer (.status 0x60#8) ::
        rxAnswers rounds ++ (answers ++ .answer .done :: .answer .done :: .answer .nothing :: [])
    let s : State := { State.reset with inbox := inbox }
    AtPhase .idle s ∧ rounds.length < 2 ∧ 2 < s.params.idxBound ∧ RxAccepted rounds ∧
      (∃ b u, ¬RxGood u ∧ answers = [.answer (.byte 1#1 b), .answer (.status u)] ∧
        failing = [.receiveByte (decide (rounds.length + 1 < 2)) 9 (some b), .readStatus u]) ∧
      s.inbox = inbox :=
  ⟨rfl, by decide, by decide, by simp [RxAccepted, RxGood]; decide, ⟨0x02#8, 0xA0#8, by simp [RxGood]; decide, rfl, rfl⟩, rfl⟩

/-- FullTransmitRuns: W4's inputs, where the declared length is above the capacity. -/
theorem witness_FullTransmitRuns :
    let inbox : List Input :=
      .command { op := 1#1, buf := 0, capacity := 0, timeout := 9 } :: .answer (.status 0xA8#8) ::
        .answer (.source [0x41#8, 0x42#8] 2 5) :: txAnswers (min 5 2) ++ .answer .done :: .answer .nothing :: []
    let s : State := { State.reset with inbox := inbox }
    AtPhase .idle s ∧ [0x41#8, 0x42#8].length = 2 ∧ 2 < s.params.idxBound ∧ 5 < s.params.lenBound ∧ s.inbox = inbox :=
  ⟨rfl, rfl, by decide, by decide, rfl⟩

/-- AbortedTransmitRuns, first kind: V51's inputs. -/
theorem witness_AbortedTransmitRuns_timeout :
    let src : List Byte := [0x01#8, 0x02#8]
    let answers : List Input := [.answer (.ok 0#1)]
    let failing : List Event := [.transmitByte 0x01#8 (decide (0 + 1 < min 2 2)) 9 false]
    let inbox : List Input :=
      .command { op := 1#1, buf := 0, capacity := 0, timeout := 9 } :: .answer (.status 0xA8#8) ::
        .answer (.source src 2 2) :: txAnswers 0 ++ (answers ++ .answer .done :: .answer .nothing :: [])
    let s : State := { State.reset with inbox := inbox }
    AtPhase .idle s ∧ src.length = 2 ∧ 2 < s.params.idxBound ∧ 2 < s.params.lenBound ∧ 0 < min 2 2 ∧ src[0]? = some 0x01#8 ∧
      (answers = [.answer (.ok 0#1)] ∧ failing = [.transmitByte 0x01#8 (decide (0 + 1 < min 2 2)) 9 false]) ∧
      s.inbox = inbox := ⟨rfl, rfl, by decide, by decide, by decide, rfl, ⟨rfl, rfl⟩, rfl⟩

/-- AbortedTransmitRuns, second kind: V52's inputs, at the last position. -/
theorem witness_AbortedTransmitRuns_status :
    let src : List Byte := [0x01#8, 0x02#8]
    let answers : List Input := [.answer (.ok 1#1), .answer (.status 0xC0#8)]
    let failing : List Event := [.transmitByte 0x02#8 (decide (1 + 1 < min 2 2)) 9 true, .readStatus 0xC0#8]
    let inbox : List Input :=
      .command { op := 1#1, buf := 0, capacity := 0, timeout := 9 } :: .answer (.status 0xA8#8) ::
        .answer (.source src 2 2) :: txAnswers 1 ++ (answers ++ .answer .done :: .answer .nothing :: [])
    let s : State := { State.reset with inbox := inbox }
    AtPhase .idle s ∧ src.length = 2 ∧ 2 < s.params.idxBound ∧ 2 < s.params.lenBound ∧ 1 < min 2 2 ∧ src[1]? = some 0x02#8 ∧
      (∃ u, u ≠ 0xB8#8 ∧ answers = [.answer (.ok 1#1), .answer (.status u)] ∧
        failing = [.transmitByte 0x02#8 (decide (1 + 1 < min 2 2)) 9 true, .readStatus u]) ∧
      s.inbox = inbox :=
  ⟨rfl, rfl, by decide, by decide, by decide, rfl, ⟨0xC0#8, by decide, rfl, rfl⟩, rfl⟩

/-- NotForHandlerRuns: W2's inputs, and W6's. -/
theorem witness_NotForHandlerRuns :
    let w : CmdWord := { op := 0#1, buf := 100, capacity := 3, timeout := 9 }
    let w' : CmdWord := { op := 1#1, buf := 0, capacity := 0, timeout := 9 }
    let s : State := { State.reset with inbox := [.command w, .answer (.status 0xA8#8), .answer .nothing] }
    let s' : State := { State.reset with inbox := [.command w', .answer (.status 0x60#8), .answer .nothing] }
    (AtPhase .idle s ∧ w.capacity < s.params.idxBound ∧
      (w.op = 0#1 → 0xA8#8 ≠ 0x60#8) ∧ (w.op = 1#1 → 0xA8#8 ≠ 0xA8#8) ∧
      s.inbox = .command w :: .answer (.status 0xA8#8) :: .answer .nothing :: []) ∧
    (AtPhase .idle s' ∧ w'.capacity < s'.params.idxBound ∧ (w'.op = 0#1 → 0x60#8 ≠ 0x60#8) ∧
      (w'.op = 1#1 → 0x60#8 ≠ 0xA8#8) ∧ s'.inbox = .command w' :: .answer (.status 0x60#8) :: .answer .nothing :: []) :=
  ⟨⟨rfl, by decide, by decide, by decide, rfl⟩, rfl, by decide, by decide, by decide, rfl⟩

/-- NothingLeaksBetweenInvocations: the machine after reset, and one that has run and been refused a command, both with the same
command to come. -/
theorem witness_NothingLeaksBetweenInvocations :
    let inbox : List Input := [.command { op := 1#1, buf := 0, capacity := 0, timeout := 9 }]
    let s : State := { State.reset with inbox := inbox }
    let s' : State :=
      { State.reset with inbox := inbox, trace := [.readStatus 0x00#8, .complete false], busyRefused := true, invStart := 2 }
    HandlerInv s ∧ HandlerInv s' ∧ AtPhase .idle s ∧ AtPhase .idle s' ∧ s.mem = s'.mem ∧ s.params = s'.params ∧
      s.inbox = s'.inbox ∧ ∃ t, Sys2Proof.core.run 1 s = .next t := by
  have cleared : ∀ s : State, s.mem = [] → s.txsrc = [] → AtPhase .idle s → RegistersCleared s → s.rxbuf = none → HandlerInv s :=
    fun s hm ht hp hr hb => ⟨by rw [hm]; rfl, by rw [ht]; rfl, .idle, hp, hr, hb, ht⟩
  exact ⟨cleared _ rfl rfl rfl ⟨rfl, rfl, rfl, rfl, rfl, rfl, rfl, rfl⟩ rfl,
    cleared _ rfl rfl rfl ⟨rfl, rfl, rfl, rfl, rfl, rfl, rfl, rfl⟩ rfl, rfl, rfl, rfl, rfl, rfl, _, rfl⟩

end Sys2Proof.Machine.Tests
end

section
/-! What a dispatched status, an interface event and a step can do, said once. Every statement about steps below is a case analysis of
`Dispatched`, `Exchanged` or `Stepped`. -/

namespace Sys2Proof.Machine

/-- A state is at one phase only. -/
theorem atPhase_unique {s : State} {p q : Phase} (hp : AtPhase p s) (hq : AtPhase q s) : p = q :=
  phaseCode_injective (hp.symm.trans hq)

/-- What dispatch of a status event at a phase leads to (40_status_decode.md R100, R101). -/
inductive Dispatched (s : State) : Phase → StatusEvent → State → Prop
  | rejected {p evs ev} (hset : expectedAt p = some evs) (hev : ev ∉ evs) : Dispatched s p ev (finish false s)
  | committed {t} (hnext : rxNext (commit s) = .next t) : Dispatched s .rxCheck .addrMatchWrite t
  | stored {ev buf pos cap b t} (hev : ev = .dataRxAck ∨ ev = .dataRxNack) (hbuf : s.rxbuf = some buf) (hpos : s.pos = some pos)
      (hcap : s.cap = some cap) (hlatch : s.latch = some b) (hlt : pos < cap)
      (hnext : rxNext (storeLatch buf pos b s) = .next t) : Dispatched s .rxVerify ev t
  | matched : Dispatched s .txCheck .addrMatchRead (goto .txProvide s)
  | sent {pos t} (hpos : s.pos = some pos) (hnext : txNext (advancePos pos s) = .next t) : Dispatched s .txVerify .dataTxAck t

/-- What an interface event's instruction leads to, the event it emits and the phase it belongs to (43_interface.md R211 to R217). -/
inductive Exchanged (s : State) : Instr → Phase → Event → State → Prop
  | readStatus {v p t} (hdispatch : Dispatched (emit (.readStatus v) s) p (decode8 v) t) :
      Exchanged s (.readStatus v) p (.readStatus v) t
  | receiveByte {answer pos cap tmo} (hpos : s.pos = some pos) (hcap : s.cap = some cap) (htmo : s.tmo = some tmo) :
      Exchanged s (.receiveByte answer) .rxXfer (.receiveByte (ackRx pos cap) tmo answer)
        (afterReceive answer (emit (.receiveByte (ackRx pos cap) tmo answer) s))
  | transmitByte {ok pos eff tmo b} (hpos : s.pos = some pos) (heff : s.eff = some eff) (htmo : s.tmo = some tmo)
      (hbyte : readByte s.txsrc pos = some b) :
      Exchanged s (.transmitByte ok) .txXfer (.transmitByte b (ackTx pos eff) tmo ok)
        (afterTransmit ok (emit (.transmitByte b (ackTx pos eff) tmo ok) s))
  | releaseBus {kind} (hkind : s.kind = some kind) :
      Exchanged s .releaseBus .finRelease .releaseBus (goto (afterRelease kind) (emit .releaseBus s))
  | onDone {buf pos} (hbuf : s.rxbuf = some buf) (hpos : s.pos = some pos) :
      Exchanged s .onDone .finDone (.onDone buf pos) (goto .complete (emit (.onDone buf pos) s))
  | provide {src c len t} (hnext : txNext (takeSource src c len (emit (.provide src c len) s)) = .next t) :
      Exchanged s (.provide src c len) .txProvide (.provide src c len) t
  | complete {r} (hresult : s.result = some r) :
      Exchanged s .complete .complete (.complete r) (clearRegisters (emit (.complete r) s))

/-- The instruction that a step at phase `p` runs for the event it emits, and what then is still to arrive: the decoded answer, or
COMPLETE with nothing more to arrive (R210). -/
def Answered (s : State) (p : Phase) (i : Instr) (rest : List Input) : Prop :=
  (p = .complete ∧ s.inbox = [] ∧ rest = [] ∧ i = .complete) ∨
    ∃ a code, s.inbox = .answer a :: rest ∧ phaseEvent p = some code ∧ decodeEvt code a = .ok i

/-- What a step at a phase leads to (10_state.md R23). -/
inductive Stepped (s : State) : Phase → State → Prop
  | receiveAccepted {buf capacity timeout w rest} (hin : s.inbox = .command w :: rest)
      (hdecode : decodeCmd w = .handleReceive buf capacity timeout) (hcap : capacity < s.params.idxBound) :
      Stepped s .idle (acceptReceive buf capacity timeout { s with inbox := rest })
  | transmitAccepted {timeout w rest} (hin : s.inbox = .command w :: rest) (hdecode : decodeCmd w = .handleTransmit timeout) :
      Stepped s .idle (acceptTransmit timeout { s with inbox := rest })
  | busy {p w rest} (hin : s.inbox = .command w :: rest) (hp : p ≠ .idle) : Stepped s p (refuseBusy { s with inbox := rest })
  | exchanged {p i e rest t} (hin : Answered s p i rest) (hwf : i.wellFormed s.params = true)
      (hrun : Exchanged { s with inbox := rest } i p e t) : Stepped s p t
  | reset {p rest} (hin : s.inbox = .reset :: rest) : Stepped s p (applyReset { s with inbox := rest })
  | hostWrite {addr v rest} (hin : s.inbox = .hostWrite addr v :: rest) :
      Stepped s .idle { s with inbox := rest, mem := writeByte s.mem addr v }

/-- RX_VERIFY's action on accept reads four registers and stores below CAP (41_receive.md R134, 20_memory.md R57). -/
theorem acceptRxVerify_next {s t : State} (h : acceptRxVerify s = .next t) :
    ∃ buf pos cap b, s.rxbuf = some buf ∧ s.pos = some pos ∧ s.cap = some cap ∧ s.latch = some b ∧ pos < cap ∧
      rxNext (storeLatch buf pos b s) = .next t := by
  obtain ⟨buf, hbuf, h⟩ := withReg_next.mp h
  obtain ⟨pos, hpos, h⟩ := withReg_next.mp h
  obtain ⟨cap, hcap, h⟩ := withReg_next.mp h
  obtain ⟨b, hlatch, h⟩ := withReg_next.mp h
  split at h
  · exact ⟨buf, pos, cap, b, hbuf, hpos, hcap, hlatch, ‹_›, h⟩
  · cases h

/-- If dispatch answers a next state, it is one that `Dispatched` names. -/
theorem dispatchStatus_dispatched {ev : StatusEvent} {s t : State} (h : dispatchStatus ev s = .next t) :
    ∃ p, AtPhase p s ∧ Dispatched s p ev t := by
  obtain ⟨p, evs, hp, hset, ⟨hev, hacc⟩ | ⟨hev, rfl⟩⟩ := dispatchStatus_next h
  · refine ⟨p, hp, ?_⟩
    cases p <;> simp only [expectedAt, reduceCtorEq, Option.some.injEq] at hset <;> subst hset <;>
      simp only [List.mem_cons, List.not_mem_nil, or_false] at hev
    case rxCheck => exact hev ▸ .committed hacc
    case rxVerify =>
      obtain ⟨buf, pos, cap, b, hbuf, hpos, hcap, hlatch, hlt, hnext⟩ := acceptRxVerify_next hacc
      exact .stored hev hbuf hpos hcap hlatch hlt hnext
    case txCheck => cases hacc; exact hev ▸ .matched
    case txVerify =>
      obtain ⟨pos, hpos, hnext⟩ := withReg_next.mp hacc
      exact hev ▸ .sent hpos hnext
  · exact ⟨p, hp, .rejected hset hev⟩

/-- Reading the source answers a next state only where it holds a byte. -/
theorem withSourceByte_next {i : Nat} {s t : State} {k : Byte → Outcome} (h : withSourceByte i s k = .next t) :
    ∃ b, readByte s.txsrc i = some b ∧ k b = .next t := by
  unfold withSourceByte at h
  split at h
  · exact ⟨_, ‹_›, h⟩
  · cases h

/-- RECEIVE_BYTE reads three registers at RX_XFER (R212). -/
theorem execReceiveByte_exchanged {answer : Option Byte} {s t : State} (h : execReceiveByte answer s = .next t) :
    ∃ p e, AtPhase p s ∧ Exchanged s (.receiveByte answer) p e t := by
  obtain ⟨hp, h⟩ := atPhase_next h
  obtain ⟨pos, hpos, h⟩ := withReg_next.mp h
  obtain ⟨cap, hcap, h⟩ := withReg_next.mp h
  obtain ⟨tmo, htmo, h⟩ := withReg_next.mp h
  cases h
  exact ⟨_, _, hp, .receiveByte hpos hcap htmo⟩

/-- TRANSMIT_BYTE reads three registers and the source at TX_XFER (R213). -/
theorem execTransmitByte_exchanged {ok : Bool} {s t : State} (h : execTransmitByte ok s = .next t) :
    ∃ p e, AtPhase p s ∧ Exchanged s (.transmitByte ok) p e t := by
  obtain ⟨hp, h⟩ := atPhase_next h
  obtain ⟨pos, hpos, h⟩ := withReg_next.mp h
  obtain ⟨eff, heff, h⟩ := withReg_next.mp h
  obtain ⟨tmo, htmo, h⟩ := withReg_next.mp h
  obtain ⟨b, hbyte, h⟩ := withSourceByte_next h
  cases h
  exact ⟨_, _, hp, .transmitByte hpos heff htmo hbyte⟩

/-- RELEASE_BUS reads KIND at FIN_RELEASE (R214). -/
theorem execReleaseBus_exchanged {s t : State} (h : execReleaseBus s = .next t) :
    ∃ p e, AtPhase p s ∧ Exchanged s .releaseBus p e t := by
  obtain ⟨hp, h⟩ := atPhase_next h
  obtain ⟨kind, hkind, h⟩ := withReg_next.mp h
  cases h
  exact ⟨_, _, hp, .releaseBus hkind⟩

/-- ON_DONE reads POS and the buffer's reference at FIN_DONE (R215). -/
theorem execOnDone_exchanged {s t : State} (h : execOnDone s = .next t) :
    ∃ p e, AtPhase p s ∧ Exchanged s .onDone p e t := by
  obtain ⟨hp, h⟩ := atPhase_next h
  obtain ⟨buf, hbuf, h⟩ := withReg_next.mp h
  obtain ⟨pos, hpos, h⟩ := withReg_next.mp h
  cases h
  exact ⟨_, _, hp, .onDone hbuf hpos⟩

/-- COMPLETE reads RESULT at its own phase (R217). -/
theorem execComplete_exchanged {s t : State} (h : execComplete s = .next t) :
    ∃ p e, AtPhase p s ∧ Exchanged s .complete p e t := by
  obtain ⟨hp, h⟩ := atPhase_next h
  obtain ⟨r, hresult, h⟩ := withReg_next.mp h
  cases h
  exact ⟨_, _, hp, .complete hresult⟩

/-- If an interface event's instruction answers a next state, it is one that `Exchanged` names, at the event's phase. -/
theorem exec_exchanged {i : Instr} {s t : State} (hi : i.format = .evt) (h : exec i s = .next t) :
    ∃ p e, AtPhase p s ∧ Exchanged s i p e t := by
  cases i with
  | readStatus v =>
    obtain ⟨p, hp, hd⟩ := dispatchStatus_dispatched (execReadStatus_next h)
    exact ⟨p, _, hp, .readStatus hd⟩
  | receiveByte answer => exact execReceiveByte_exchanged h
  | transmitByte ok => exact execTransmitByte_exchanged h
  | releaseBus => exact execReleaseBus_exchanged h
  | onDone => exact execOnDone_exchanged h
  | provide src c len =>
    obtain ⟨hp, hnext⟩ := atPhase_next h
    exact ⟨_, _, hp, .provide hnext⟩
  | complete => exact execComplete_exchanged h
  | _ => cases hi

/-- The answer of an interface event decodes to an instruction of format EVT (30_encoding.md R72). -/
theorem format_of_decodeEvt {code : BitVec 4} {a : Answer} {i : Instr} (h : decodeEvt code a = .ok i) : i.format = .evt := by
  unfold decodeEvt at h
  split at h
  case h_8 => cases h
  all_goals
    split at h <;> cases h
    rfl

/-- A command's instruction takes it at IDLE and refuses it BUSY_COMMAND elsewhere (R130, R170, R259). -/
theorem exec_decodeCmd_stepped {s t : State} {w : CmdWord} {rest : List Input} (hin : s.inbox = .command w :: rest)
    (hwf : (decodeCmd w).wellFormed s.params = true) (h : exec (decodeCmd w) { s with inbox := rest } = .next t) :
    ∃ p, AtPhase p s ∧ Stepped s p t := by
  have hcmd : (∃ buf capacity timeout, decodeCmd w = .handleReceive buf capacity timeout) ∨
      ∃ timeout, decodeCmd w = .handleTransmit timeout := by
    unfold decodeCmd
    split <;> simp
  obtain ⟨buf, capacity, timeout, hd⟩ | ⟨timeout, hd⟩ := hcmd <;> rw [hd] at h hwf
  · obtain ⟨p, hp, ⟨rfl, rfl⟩ | ⟨hne, rfl⟩⟩ := takeCommand_next h
    · exact ⟨_, hp, .receiveAccepted hin hd (of_decide_eq_true hwf)⟩
    · exact ⟨p, hp, .busy hin hne⟩
  · obtain ⟨p, hp, ⟨rfl, rfl⟩ | ⟨hne, rfl⟩⟩ := takeCommand_next h
    · exact ⟨_, hp, .transmitAccepted hin hd⟩
    · exact ⟨p, hp, .busy hin hne⟩

/-- If a step answers a next state, it is one that `Stepped` names. -/
theorem step_stepped {s t : State} (h : step s = .next t) : ∃ p, AtPhase p s ∧ Stepped s p t := by
  obtain ⟨p, hp, ⟨rfl, hin, hx⟩ | ⟨w, rest, hin, hwf, hx⟩ | ⟨a, rest, code, i, hin, hcode, hd, hwf, hx⟩ | ⟨rest, hin, rfl⟩ |
    ⟨rfl, addr, v, rest, hin, rfl⟩⟩ := step_cases h
  · have hs : { s with inbox := [] } = s := by rw [← hin]
    obtain ⟨q, e, hq, hx⟩ := execComplete_exchanged hx
    obtain rfl := atPhase_unique hp hq
    exact ⟨_, hp, .exchanged (.inl ⟨rfl, hin, rfl, rfl⟩) rfl (hs.symm ▸ hx)⟩
  · exact exec_decodeCmd_stepped hin hwf hx
  · obtain ⟨q, e, hq, hx⟩ := exec_exchanged (format_of_decodeEvt hd) hx
    obtain rfl := atPhase_unique hp hq
    exact ⟨p, hp, .exchanged (.inr ⟨a, code, hin, hcode, hd⟩) hwf hx⟩
  · exact ⟨p, hp, .reset hin⟩
  · exact ⟨_, hp, .hostWrite hin⟩

end Sys2Proof.Machine
end

section
/-! Every step keeps `HandlerInv` (spec/10_state.md R34, R43): the registers are those of the next phase, and both memories stay in
canonical form. -/

namespace Sys2Proof.Machine

/-! ## The two loop tests write PHASE and RESULT only -/

theorem rxNext_frame {s t : State} (h : rxNext s = .next t) : ∃ phase result, t = { s with phase := phase, result := result } := by
  obtain ⟨_, _, _, _, ⟨_, rfl⟩ | ⟨_, rfl⟩⟩ := rxNext_next h
  · exact ⟨_, _, rfl⟩
  · exact ⟨_, _, rfl⟩

theorem txNext_frame {s t : State} (h : txNext s = .next t) : ∃ phase result, t = { s with phase := phase, result := result } := by
  obtain ⟨_, _, _, _, ⟨_, rfl⟩ | ⟨_, rfl⟩⟩ := txNext_next h
  · exact ⟨_, _, rfl⟩
  · exact ⟨_, _, rfl⟩

/-! ## Both memories -/

theorem Dispatched.wf_mem {s t : State} {p : Phase} {ev : StatusEvent} (h : Dispatched s p ev t)
    (hm : Memory.wf s.mem = true) : Memory.wf t.mem = true := by
  cases h with
  | rejected => exact hm
  | committed hnext => obtain ⟨_, _, rfl⟩ := rxNext_frame hnext; exact hm
  | stored _ _ _ _ _ _ hnext => obtain ⟨_, _, rfl⟩ := rxNext_frame hnext; exact wf_writeByte _ _ _ hm
  | matched => exact hm
  | sent _ hnext => obtain ⟨_, _, rfl⟩ := txNext_frame hnext; exact hm

theorem Dispatched.txsrc_eq {s t : State} {p : Phase} {ev : StatusEvent} (h : Dispatched s p ev t) : t.txsrc = s.txsrc := by
  cases h with
  | rejected => rfl
  | committed hnext => obtain ⟨_, _, rfl⟩ := rxNext_frame hnext; rfl
  | stored _ _ _ _ _ _ hnext => obtain ⟨_, _, rfl⟩ := rxNext_frame hnext; rfl
  | matched => rfl
  | sent _ hnext => obtain ⟨_, _, rfl⟩ := txNext_frame hnext; rfl

theorem Exchanged.wf_memories {s t : State} {i : Instr} {p : Phase} {e : Event} (h : Exchanged s i p e t)
    (hm : Memory.wf s.mem = true) (hs : Memory.wf s.txsrc = true) : Memory.wf t.mem = true ∧ Memory.wf t.txsrc = true := by
  cases h with
  | readStatus hd => exact ⟨hd.wf_mem hm, hd.txsrc_eq ▸ hs⟩
  | @receiveByte answer => cases answer <;> exact ⟨hm, hs⟩
  | @transmitByte ok => cases ok <;> exact ⟨hm, hs⟩
  | releaseBus => exact ⟨hm, hs⟩
  | onDone => exact ⟨hm, hs⟩
  | provide hnext => obtain ⟨_, _, rfl⟩ := txNext_frame hnext; exact ⟨hm, wf_regionFrom _ _⟩
  | complete => exact ⟨hm, rfl⟩

theorem Stepped.wf_memories {s t : State} {p : Phase} (h : Stepped s p t)
    (hm : Memory.wf s.mem = true) (hs : Memory.wf s.txsrc = true) : Memory.wf t.mem = true ∧ Memory.wf t.txsrc = true := by
  cases h with
  | receiveAccepted => exact ⟨hm, hs⟩
  | transmitAccepted => exact ⟨hm, hs⟩
  | busy => exact ⟨hm, hs⟩
  | exchanged _ _ hrun => exact hrun.wf_memories hm hs
  | reset => exact ⟨hm, rfl⟩
  | hostWrite => exact ⟨wf_writeByte _ _ _ hm, hs⟩

/-! ## The registers of the phase -/

/-- The registers are those that the state's phase holds: `HandlerInv` without the memories. -/
def RegistersHeld (s : State) : Prop := ∃ p, AtPhase p s ∧ PhaseInv p s

theorem handlerInv_iff (s : State) :
    HandlerInv s ↔ Memory.wf s.mem = true ∧ Memory.wf s.txsrc = true ∧ RegistersHeld s := Iff.rfl

/-- What a phase holds does not depend on host memory, the trace, the record of refusals or what is still to arrive. -/
theorem phaseInv_outside (p : Phase) (s : State) (mem : Memory) (trace : List Event) (busy : Bool) (inbox : List Input) :
    PhaseInv p { s with mem := mem, trace := trace, busyRefused := busy, inbox := inbox } ↔ PhaseInv p s := by
  cases p <;> exact Iff.rfl

theorem PhaseInv.emit {p : Phase} {s : State} (h : PhaseInv p s) (e : Event) : PhaseInv p (emit e s) :=
  (phaseInv_outside p s s.mem (s.trace ++ [e]) s.busyRefused s.inbox).mpr h

theorem PhaseInv.withInbox {p : Phase} {s : State} (h : PhaseInv p s) (inbox : List Input) :
    PhaseInv p { s with inbox := inbox } :=
  (phaseInv_outside p s s.mem s.trace s.busyRefused inbox).mpr h

/-- `finish` of a committed receive goes to FIN_RELEASE (41_receive.md R136). -/
theorem finish_rx_held {s : State} {r : Bool} {pos cap : Nat} (hrx : HoldsRx s) (harmed : s.armed = true)
    (hpos : HasPos s pos cap) (hr : r = true ↔ pos = cap) : RegistersHeld (finish r s) :=
  ⟨.finRelease, by simp [AtPhase, harmed], harmed, r, rfl, .inl ⟨hrx, pos, cap, hpos, hr⟩⟩

/-- `finish` of a committed transmit goes to FIN_RELEASE. -/
theorem finish_tx_held {s : State} {r : Bool} {pos eff : Nat} (htx : HoldsTx s) (harmed : s.armed = true)
    (hsrc : HasSource s pos eff) (hr : r = true ↔ pos = eff) : RegistersHeld (finish r s) :=
  ⟨.finRelease, by simp [AtPhase, harmed], harmed, r, rfl, .inr ⟨htx, pos, eff, hsrc, hr⟩⟩

/-- `finish(false)` at the phases whose rule calls it with ARMED as it stands. -/
theorem finish_false_held {p : Phase} {s : State} (hp : p ∈ finishingPhases) (h : PhaseInv p s) :
    RegistersHeld (finish false s) := by
  have short {a b : Nat} (hlt : a < b) : false = true ↔ a = b := by simp [hlt.ne]
  cases p with
  | rxCheck =>
    obtain ⟨hrx, harmed, hpos, hlatch, -⟩ := h
    exact ⟨.complete, by simp [AtPhase, harmed], false, rfl, .inr (.inr (.inl ⟨harmed, rfl, hrx, hpos, hlatch⟩))⟩
  | txCheck =>
    obtain ⟨htx, harmed, hno, -⟩ := h
    exact ⟨.complete, by simp [AtPhase, harmed], false, rfl, .inr (.inr (.inr ⟨harmed, rfl, htx, hno⟩))⟩
  | rxXfer =>
    obtain ⟨hrx, harmed, -, -, _, _, hpos, hlt⟩ := h
    exact finish_rx_held hrx harmed hpos (short hlt)
  | rxVerify =>
    obtain ⟨hrx, harmed, -, -, _, _, hpos, hlt⟩ := h
    exact finish_rx_held hrx harmed hpos (short hlt)
  | txXfer =>
    obtain ⟨htx, harmed, -, _, _, hsrc, hlt⟩ := h
    exact finish_tx_held htx harmed hsrc (short hlt)
  | txVerify =>
    obtain ⟨htx, harmed, -, _, _, hsrc, hlt⟩ := h
    exact finish_tx_held htx harmed hsrc (short hlt)
  | _ => simp [finishingPhases] at hp

/-- The receive loop test of a committed receive (R132): POS < CAP goes on, POS = CAP finishes with 1. -/
theorem rxNext_held {s t : State} {pos cap : Nat} (h : rxNext s = .next t) (hrx : HoldsRx s) (harmed : s.armed = true)
    (hlatch : s.latch = none) (hresult : s.result = none) (hpos : HasPos s pos cap) : RegistersHeld t := by
  obtain ⟨hp, hc, hle⟩ := id hpos
  rw [rxNext_of hp hc] at h
  split at h <;> cases h
  · exact ⟨.rxXfer, rfl, hrx, harmed, hlatch, hresult, pos, cap, hpos, ‹_›⟩
  · exact finish_rx_held hrx harmed hpos (by simp; omega)

/-- The transmit loop test of a committed transmit (42_transmit.md R173). -/
theorem txNext_held {s t : State} {pos eff : Nat} (h : txNext s = .next t) (htx : HoldsTx s) (harmed : s.armed = true)
    (hresult : s.result = none) (hsrc : HasSource s pos eff) : RegistersHeld t := by
  obtain ⟨hp, he, hle, -⟩ := id hsrc
  rw [txNext_of hp he] at h
  split at h <;> cases h
  · exact ⟨.txXfer, rfl, htx, harmed, hresult, pos, eff, hsrc, ‹_›⟩
  · exact finish_tx_held htx harmed hsrc (by simp; omega)

/-- Below a bound the register holds, POS + 1 does not wrap (R134, R175). -/
theorem nextPos_of_lt {p : Params} {pos n : Nat} (hlt : pos < n) (hn : n < p.idxBound) : nextPos p pos = pos + 1 :=
  Nat.mod_eq_of_lt (by omega)

/-- The store keeps a receive's position in its bound. -/
theorem storeLatch_hasPos {s : State} {pos cap : Nat} (hrx : HoldsRx s) (hpos : HasPos s pos cap) (hlt : pos < cap) (buf : Ref)
    (b : Byte) : HasPos (storeLatch buf pos b s) (pos + 1) cap := by
  obtain ⟨-, -, -, -, c, hc, hbound⟩ := hrx
  obtain ⟨-, hcap, -⟩ := hpos
  obtain rfl : c = cap := Option.some.inj (hc.symm.trans hcap)
  exact ⟨by simp [nextPos_of_lt hlt hbound], hcap, hlt⟩

/-- The next position of a transmit is in its bounds. -/
theorem advancePos_hasSource {s : State} {pos eff : Nat} (hsrc : HasSource s pos eff) (hlt : pos < eff) :
    HasSource (advancePos pos s) (pos + 1) eff := by
  obtain ⟨-, heff, -, c, hcap, hec, hbound, hbytes⟩ := hsrc
  exact ⟨by simp [nextPos_of_lt hlt (by omega : eff < s.params.idxBound)], heff, hlt, c, hcap, hec, hbound, hbytes⟩

/-- The source that PROVIDE answers, at its first byte (R172). -/
theorem takeSource_hasSource (s : State) {src : List Byte} {c len : Nat} (hlen : src.length = c) (hc : c < s.params.idxBound) :
    HasSource (takeSource src c len s) 0 (effLength len c) := by
  refine ⟨rfl, rfl, Nat.zero_le _, c, rfl, Nat.min_le_right len c, hc, fun i hi => ?_⟩
  exact ⟨src[i], by simpa [hlen, hi] using readByte_regionFrom src 0 i⟩

/-- Every phase that reads the status may finish. -/
theorem mem_finishingPhases_of_expectedAt {p : Phase} {evs : List StatusEvent} (h : expectedAt p = some evs) :
    p ∈ finishingPhases := by
  cases p <;> simp [expectedAt, finishingPhases] at h ⊢

theorem Dispatched.registersHeld {s t : State} {p : Phase} {ev : StatusEvent} (h : Dispatched s p ev t) (hinv : PhaseInv p s) :
    RegistersHeld t := by
  cases h with
  | rejected hset => exact finish_false_held (mem_finishingPhases_of_expectedAt hset) hinv
  | committed hnext =>
    obtain ⟨hrx, -, -, hlatch, hresult⟩ := hinv
    obtain ⟨-, -, -, -, c, hcap, -⟩ := id hrx
    exact rxNext_held hnext hrx rfl hlatch hresult ⟨rfl, hcap, Nat.zero_le c⟩
  | @stored _ buf pos _ b _ _ _ hpos hcap _ hlt hnext =>
    obtain ⟨hrx, harmed, -, hresult, -⟩ := hinv
    exact rxNext_held hnext hrx harmed rfl hresult (storeLatch_hasPos hrx ⟨hpos, hcap, hlt.le⟩ hlt buf b)
  | matched => exact ⟨.txProvide, rfl, hinv⟩
  | sent hpos hnext =>
    obtain ⟨htx, harmed, hresult, pos, eff, hsrc, hlt⟩ := hinv
    obtain rfl := Option.some.inj (hsrc.1.symm.trans hpos)
    exact txNext_held hnext htx harmed hresult (advancePos_hasSource hsrc hlt)

theorem Exchanged.registersHeld {s t : State} {i : Instr} {p : Phase} {e : Event} (h : Exchanged s i p e t)
    (hwf : i.wellFormed s.params = true) (hinv : PhaseInv p s) : RegistersHeld t := by
  cases h with
  | readStatus hd => exact hd.registersHeld (hinv.emit _)
  | @receiveByte answer =>
    cases answer with
    | none => exact finish_false_held (p := .rxXfer) (by decide) (hinv.emit _)
    | some b =>
      obtain ⟨hrx, harmed, -, hresult, hpos⟩ := hinv
      exact ⟨.rxVerify, rfl, hrx, harmed, ⟨b, rfl⟩, hresult, hpos⟩
  | @transmitByte ok =>
    cases ok with
    | false => exact finish_false_held (p := .txXfer) (by decide) (hinv.emit _)
    | true => exact ⟨.txVerify, rfl, hinv⟩
  | releaseBus hkind =>
    obtain ⟨harmed, r, hresult, ⟨hrx, hpos⟩ | ⟨htx, hsrc⟩⟩ := hinv
    · obtain rfl := Option.some.inj (hrx.1.symm.trans hkind)
      exact ⟨.finDone, rfl, harmed, r, hresult, hrx, hpos⟩
    · obtain rfl := Option.some.inj (htx.1.symm.trans hkind)
      exact ⟨.complete, rfl, r, hresult, .inr (.inl ⟨harmed, htx, hsrc⟩)⟩
  | onDone =>
    obtain ⟨harmed, r, hresult, hrx, hpos⟩ := hinv
    exact ⟨.complete, rfl, r, hresult, .inl ⟨harmed, hrx, hpos⟩⟩
  | provide hnext =>
    obtain ⟨htx, -, -, hresult⟩ := hinv
    simp only [Instr.wellFormed, Bool.and_eq_true, decide_eq_true_eq] at hwf
    exact txNext_held hnext htx rfl hresult (takeSource_hasSource _ hwf.1.1 hwf.1.2)
  | complete => exact ⟨.idle, rfl, ⟨rfl, rfl, rfl, rfl, rfl, rfl, rfl, rfl⟩, rfl, rfl⟩

theorem Stepped.registersHeld {s t : State} {p : Phase} (h : Stepped s p t) (hp : AtPhase p s) (hinv : PhaseInv p s) :
    RegistersHeld t := by
  cases h with
  | @receiveAccepted buf capacity timeout _ _ _ _ hcap =>
    exact ⟨.rxCheck, rfl, ⟨rfl, rfl, ⟨timeout, rfl⟩, ⟨buf, rfl⟩, capacity, rfl, hcap⟩, rfl, rfl, rfl, rfl⟩
  | @transmitAccepted timeout =>
    obtain ⟨-, hbuf, -⟩ := hinv
    exact ⟨.txCheck, rfl, ⟨rfl, rfl, hbuf, timeout, rfl⟩, rfl, ⟨rfl, rfl, rfl⟩, rfl⟩
  | @busy _ _ rest => exact ⟨p, hp, (phaseInv_outside p s s.mem s.trace true rest).mpr hinv⟩
  | exchanged _ hwf hrun => exact hrun.registersHeld hwf (hinv.withInbox _)
  | reset => exact ⟨.idle, rfl, ⟨rfl, rfl, rfl, rfl, rfl, rfl, rfl, rfl⟩, rfl, rfl⟩
  | hostWrite => exact ⟨.idle, hp, hinv⟩

/-- Settles O44: both memories stay in canonical form, and each way a step can end sets the registers its next phase holds. -/
theorem stepKeepsInvariant : Obligations.StepKeepsInvariant := by
  intro s t hinv hstep
  obtain ⟨hm, hs, p, hp, hphase⟩ := hinv
  obtain ⟨q, hq, hstepped⟩ := step_stepped hstep
  obtain rfl := atPhase_unique hp hq
  obtain ⟨hm', hs'⟩ := hstepped.wf_memories hm hs
  exact (handlerInv_iff t).mpr ⟨hm', hs', hstepped.registersHeld hp hphase⟩

end Sys2Proof.Machine
end

section
/-! What a step emits and where it moves PHASE (spec/10_state.md R23, R24). -/

namespace Sys2Proof.Machine

/-! ## The event -/

/-- Dispatch on the status emits nothing. -/
theorem Dispatched.trace_eq {s t : State} {p : Phase} {ev : StatusEvent} (h : Dispatched s p ev t) : t.trace = s.trace := by
  cases h with
  | rejected => rfl
  | committed hnext => obtain ⟨_, _, rfl⟩ := rxNext_frame hnext; rfl
  | stored _ _ _ _ _ _ hnext => obtain ⟨_, _, rfl⟩ := rxNext_frame hnext; rfl
  | matched => rfl
  | sent _ hnext => obtain ⟨_, _, rfl⟩ := txNext_frame hnext; rfl

/-- An exchange emits its event. -/
theorem Exchanged.trace_eq {s t : State} {i : Instr} {p : Phase} {e : Event} (h : Exchanged s i p e t) :
    t.trace = s.trace ++ [e] := by
  cases h with
  | readStatus hd => exact hd.trace_eq
  | @receiveByte answer => cases answer <;> rfl
  | @transmitByte ok => cases ok <;> rfl
  | releaseBus => rfl
  | onDone => rfl
  | provide hnext => obtain ⟨_, _, rfl⟩ := txNext_frame hnext; rfl
  | complete => rfl

/-- The phases that dispatch on a status are those that emit READ_STATUS (40_status_decode.md R100). -/
theorem Dispatched.readsStatus {s t : State} {p : Phase} {ev : StatusEvent} (h : Dispatched s p ev t) :
    p ∈ [.rxCheck, .rxVerify, .txCheck, .txVerify] := by
  cases h with
  | rejected hset => cases p <;> simp [expectedAt] at hset ⊢
  | _ => decide

/-- An exchange's event has the code its phase emits and the arguments the registers give (R23, 30_encoding.md R76). -/
theorem Exchanged.event_of_phase {s t : State} {i : Instr} {p : Phase} {e : Event} (h : Exchanged s i p e t) (hp : AtPhase p s) :
    phaseEvent p = some (eventCode e) ∧ pendingRequest s = some (eventRequest e) := by
  unfold AtPhase at hp
  cases h with
  | readStatus hd =>
    have hread := hd.readsStatus
    simp only [List.mem_cons, List.not_mem_nil, or_false] at hread
    obtain rfl | rfl | rfl | rfl := hread <;> exact ⟨rfl, by simp [pendingRequest, hp, eventRequest]⟩
  | receiveByte hpos hcap htmo => exact ⟨rfl, by simp [pendingRequest, hp, hpos, hcap, htmo, eventRequest]⟩
  | transmitByte hpos heff htmo hbyte => exact ⟨rfl, by simp [pendingRequest, hp, hpos, heff, htmo, hbyte, eventRequest]⟩
  | releaseBus => exact ⟨rfl, by simp [pendingRequest, hp, eventRequest]⟩
  | onDone hbuf hpos => exact ⟨rfl, by simp [pendingRequest, hp, hbuf, hpos, eventRequest]⟩
  | provide => exact ⟨rfl, by simp [pendingRequest, hp, eventRequest]⟩
  | complete hresult => exact ⟨rfl, by simp [pendingRequest, hp, hresult, eventRequest]⟩

/-- Settles O37: only an exchange changes the trace, and it appends its own phase's event. -/
theorem stepEmitsItsPhasesEvent : Obligations.StepEmitsItsPhasesEvent := by
  intro s t hstep
  obtain ⟨p, hp, h⟩ := step_stepped hstep
  cases h with
  | exchanged _ _ hrun =>
    obtain ⟨hcode, hrequest⟩ := hrun.event_of_phase hp
    exact .inr ⟨p, _, hp, hcode, hrequest, hrun.trace_eq⟩
  | _ => exact .inl rfl

/-! ## The next phase -/

/-- Where `finish` moves PHASE (41_receive.md R136). -/
def afterFinish (armed : Bool) : Phase := if armed then .finRelease else .complete

/-- What a phase's rule moves to: one of its successors, or, where it calls `finish`, the place ARMED gives. -/
def RuleMoves (s : State) (p q : Phase) : Prop := q ∈ phaseSuccessors p ∨ (p ∈ finishingPhases ∧ q = afterFinish s.armed)

theorem finish_atPhase (r : Bool) (s : State) : AtPhase (afterFinish s.armed) (finish r s) := rfl

theorem rxNext_atPhase {s t : State} (h : rxNext s = .next t) : AtPhase .rxXfer t ∨ AtPhase (afterFinish s.armed) t := by
  obtain ⟨_, _, _, _, ⟨_, rfl⟩ | ⟨_, rfl⟩⟩ := rxNext_next h
  · exact .inl rfl
  · exact .inr rfl

theorem txNext_atPhase {s t : State} (h : txNext s = .next t) : AtPhase .txXfer t ∨ AtPhase (afterFinish s.armed) t := by
  obtain ⟨_, _, _, _, ⟨_, rfl⟩ | ⟨_, rfl⟩⟩ := txNext_next h
  · exact .inl rfl
  · exact .inr rfl

theorem Dispatched.moves {s t : State} {p : Phase} {ev : StatusEvent} (h : Dispatched s p ev t) :
    ∃ q, AtPhase q t ∧ RuleMoves s p q := by
  cases h with
  | rejected hset => exact ⟨_, finish_atPhase false s, .inr ⟨mem_finishingPhases_of_expectedAt hset, rfl⟩⟩
  | committed hnext =>
    obtain hq | hq := rxNext_atPhase hnext
    · exact ⟨_, hq, .inl (by decide)⟩
    · exact ⟨.finRelease, hq, .inl (by decide)⟩
  | stored _ _ _ _ _ _ hnext =>
    obtain hq | hq := rxNext_atPhase hnext
    · exact ⟨_, hq, .inl (by decide)⟩
    · exact ⟨_, hq, .inr ⟨by decide, rfl⟩⟩
  | matched => exact ⟨.txProvide, rfl, .inl (by decide)⟩
  | sent _ hnext =>
    obtain hq | hq := txNext_atPhase hnext
    · exact ⟨_, hq, .inl (by decide)⟩
    · exact ⟨_, hq, .inr ⟨by decide, rfl⟩⟩

theorem Exchanged.moves {s t : State} {i : Instr} {p : Phase} {e : Event} (h : Exchanged s i p e t) :
    ∃ q, AtPhase q t ∧ RuleMoves s p q := by
  cases h with
  | readStatus hd => exact hd.moves
  | @receiveByte answer =>
    cases answer with
    | none => exact ⟨_, finish_atPhase false _, .inr ⟨by decide, rfl⟩⟩
    | some b => exact ⟨.rxVerify, rfl, .inl (by decide)⟩
  | @transmitByte ok =>
    cases ok with
    | false => exact ⟨_, finish_atPhase false _, .inr ⟨by decide, rfl⟩⟩
    | true => exact ⟨.txVerify, rfl, .inl (by decide)⟩
  | @releaseBus kind => exact ⟨afterRelease kind, rfl, .inl (by cases kind <;> decide)⟩
  | onDone => exact ⟨.complete, rfl, .inl (by decide)⟩
  | provide hnext =>
    obtain hq | hq := txNext_atPhase hnext
    · exact ⟨_, hq, .inl (by decide)⟩
    · exact ⟨.finRelease, hq, .inl (by decide)⟩
  | complete => exact ⟨.idle, rfl, .inl (by decide)⟩

theorem Stepped.moves {s t : State} {p : Phase} (h : Stepped s p t) (hp : AtPhase p s) :
    ∃ q, AtPhase q t ∧ ((q = p ∧ PhaseStays p s) ∨ (q = .idle ∧ s.inbox.head? = some .reset) ∨ RuleMoves s p q) := by
  cases h with
  | receiveAccepted => exact ⟨.rxCheck, rfl, .inr (.inr (.inl (by decide)))⟩
  | transmitAccepted => exact ⟨.txCheck, rfl, .inr (.inr (.inl (by decide)))⟩
  | @busy _ w _ hin hne => exact ⟨p, hp, .inl ⟨rfl, .inl ⟨hne, w, by simp [hin]⟩⟩⟩
  | exchanged _ _ hrun => exact hrun.moves.imp fun _ ⟨hq, hmove⟩ => ⟨hq, .inr (.inr hmove)⟩
  | reset hin => exact ⟨.idle, rfl, .inr (.inl ⟨rfl, by simp [hin]⟩)⟩
  | @hostWrite addr v _ hin => exact ⟨.idle, hp, .inl ⟨rfl, .inr ⟨rfl, addr, v, by simp [hin]⟩⟩⟩

/-- The phases at which R43 says ARMED = 1. -/
def armedPhases : List Phase := [.rxXfer, .rxVerify, .txXfer, .txVerify, .finRelease, .finDone]

theorem PhaseInv.armed_eq {p : Phase} {s : State} (h : PhaseInv p s) (hp : p ∈ armedPhases) : s.armed = true := by
  cases p with
  | rxXfer | rxVerify | txXfer | txVerify =>
    obtain ⟨-, harmed, -⟩ := h
    exact harmed
  | finRelease | finDone =>
    obtain ⟨harmed, -⟩ := h
    exact harmed
  | _ => simp [armedPhases] at hp

/-- Under the invariant ARMED is known at each phase that may finish, so `finish` moves to a listed successor (R43, R136). -/
theorem RuleMoves.mem_phaseSuccessors {s : State} {p q : Phase} (h : RuleMoves s p q) (hinv : PhaseInv p s) :
    q ∈ phaseSuccessors p := by
  obtain hq | ⟨hp, rfl⟩ := h
  · exact hq
  cases p with
  | rxCheck | txCheck =>
    obtain ⟨-, harmed, -⟩ := hinv
    rw [harmed]
    decide
  | rxXfer | rxVerify | txXfer | txVerify =>
    rw [hinv.armed_eq (by decide)]
    decide
  | _ => simp [finishingPhases] at hp

/-- Settles O38: every way a step can end stays, resets or moves by the phase's rule. -/
theorem phaseSuccessors_of_step : Obligations.PhaseSuccessors := by
  intro s t p hstep hp
  obtain ⟨p', hp', h⟩ := step_stepped hstep
  obtain rfl := atPhase_unique hp hp'
  obtain ⟨q, hq, hmove⟩ := h.moves hp
  refine ⟨q, hq, hmove, fun ⟨_, _, p', hp', hinv⟩ => ?_⟩
  obtain rfl := atPhase_unique hp hp'
  exact hmove.imp_right (.imp_right fun hrule => hrule.mem_phaseSuccessors hinv)

end Sys2Proof.Machine
end

section
/-! Which instruction may write which register (spec/10_state.md R22, R25 to R32). -/

namespace Sys2Proof.Machine

/-- The registers the meaning of a status event may write, and host memory (40_status_decode.md R104 to R110). -/
def StatusWrites (s t : State) : StatusEvent → Prop
  | .addrMatchWrite => ∃ pos armed phase result, t = { s with pos := pos, armed := armed, phase := phase, result := result }
  | .dataRxAck | .dataRxNack => ∃ mem pos latch phase result,
      t = { s with mem := mem, pos := pos, latch := latch, phase := phase, result := result }
  | .dataTxAck => ∃ pos phase result, t = { s with pos := pos, phase := phase, result := result }
  | .addrMatchRead | .unexpected => ∃ phase result, t = { s with phase := phase, result := result }

/-- The fields an instruction may write. -/
def InstrWrites (s t : State) : Instr → Prop
  | .handleReceive buf capacity timeout => t = acceptReceive buf capacity timeout s ∨ t = refuseBusy s
  | .handleTransmit timeout => t = acceptTransmit timeout s ∨ t = refuseBusy s
  | .addrMatchWrite => StatusWrites s t .addrMatchWrite
  | .dataRxAck => StatusWrites s t .dataRxAck
  | .dataRxNack => StatusWrites s t .dataRxNack
  | .addrMatchRead => StatusWrites s t .addrMatchRead
  | .dataTxAck => StatusWrites s t .dataTxAck
  | .unexpected _ => StatusWrites s t .unexpected
  | .readStatus _ => ∃ mem pos latch armed phase result trace,
      t = { s with
        mem := mem, pos := pos, latch := latch, armed := armed, phase := phase, result := result, trace := trace }
  | .receiveByte _ => ∃ latch phase result trace, t = { s with latch := latch, phase := phase, result := result, trace := trace }
  | .transmitByte _ => ∃ phase result trace, t = { s with phase := phase, result := result, trace := trace }
  | .releaseBus | .onDone => ∃ phase trace, t = { s with phase := phase, trace := trace }
  | .provide _ _ _ => ∃ txsrc cap eff armed pos phase result trace,
      t = { s with
        txsrc := txsrc, cap := cap, eff := eff, armed := armed, pos := pos, phase := phase, result := result, trace := trace }
  | .complete => ∃ trace, t = clearRegisters { s with trace := trace }

/-- `finish` writes what every status event may write. -/
theorem finish_statusWrites (r : Bool) (s : State) (ev : StatusEvent) : StatusWrites s (finish r s) ev := by
  cases ev with
  | addrMatchWrite => exact ⟨_, _, _, _, rfl⟩
  | dataRxAck | dataRxNack => exact ⟨_, _, _, _, _, rfl⟩
  | dataTxAck => exact ⟨_, _, _, rfl⟩
  | addrMatchRead | unexpected => exact ⟨_, _, rfl⟩

theorem Dispatched.statusWrites {s t : State} {p : Phase} {ev : StatusEvent} (h : Dispatched s p ev t) : StatusWrites s t ev := by
  cases h with
  | rejected => exact finish_statusWrites false s ev
  | committed hnext =>
    obtain ⟨_, _, rfl⟩ := rxNext_frame hnext
    exact ⟨_, _, _, _, rfl⟩
  | stored hev _ _ _ _ _ hnext =>
    obtain ⟨_, _, rfl⟩ := rxNext_frame hnext
    obtain rfl | rfl := hev <;> exact ⟨_, _, _, _, _, rfl⟩
  | matched => exact ⟨_, _, rfl⟩
  | sent _ hnext =>
    obtain ⟨_, _, rfl⟩ := txNext_frame hnext
    exact ⟨_, _, _, rfl⟩

/-- What any status event may write, for READ_STATUS, whose answer may be any of them. -/
theorem StatusWrites.any {s t : State} {ev : StatusEvent} (h : StatusWrites s t ev) : ∃ mem pos latch armed phase result,
    t = { s with mem := mem, pos := pos, latch := latch, armed := armed, phase := phase, result := result } := by
  cases ev with
  | addrMatchWrite => obtain ⟨_, _, _, _, rfl⟩ := h; exact ⟨_, _, _, _, _, _, rfl⟩
  | dataRxAck | dataRxNack => obtain ⟨_, _, _, _, _, rfl⟩ := h; exact ⟨_, _, _, _, _, _, rfl⟩
  | dataTxAck => obtain ⟨_, _, _, rfl⟩ := h; exact ⟨_, _, _, _, _, _, rfl⟩
  | addrMatchRead | unexpected => obtain ⟨_, _, rfl⟩ := h; exact ⟨_, _, _, _, _, _, rfl⟩

theorem Exchanged.instrWrites {s t : State} {i : Instr} {p : Phase} {e : Event} (h : Exchanged s i p e t) : InstrWrites s t i := by
  cases h with
  | readStatus hd =>
    obtain ⟨_, _, _, _, _, _, rfl⟩ := hd.statusWrites.any
    exact ⟨_, _, _, _, _, _, _, rfl⟩
  | @receiveByte answer => cases answer <;> exact ⟨_, _, _, _, rfl⟩
  | @transmitByte ok => cases ok <;> exact ⟨_, _, _, rfl⟩
  | releaseBus => exact ⟨_, _, rfl⟩
  | onDone => exact ⟨_, _, rfl⟩
  | provide hnext =>
    obtain ⟨_, _, rfl⟩ := txNext_frame hnext
    exact ⟨_, _, _, _, _, _, _, _, rfl⟩
  | complete => exact ⟨_, rfl⟩

/-- A command is accepted or refused. -/
theorem takeCommand_accepts_or_refuses {f : State → State} {s t : State} (h : takeCommand f s = .next t) :
    t = f s ∨ t = refuseBusy s := by
  obtain ⟨_, _, ⟨_, ht⟩ | ⟨_, ht⟩⟩ := takeCommand_next h
  · exact .inl ht
  · exact .inr ht

/-- A status event's instruction writes what its event may. -/
theorem dispatchStatus_statusWrites {ev : StatusEvent} {s t : State} (h : dispatchStatus ev s = .next t) : StatusWrites s t ev :=
  (dispatchStatus_dispatched h).elim fun _ hd => hd.2.statusWrites

/-- An instruction that answers a next state writes only its own fields. -/
theorem exec_instrWrites {i : Instr} {s t : State} (h : exec i s = .next t) : InstrWrites s t i := by
  cases i with
  | handleReceive => exact takeCommand_accepts_or_refuses h
  | handleTransmit => exact takeCommand_accepts_or_refuses h
  | addrMatchWrite | dataRxAck | dataRxNack | addrMatchRead | dataTxAck | unexpected => exact dispatchStatus_statusWrites h
  | readStatus | receiveByte | transmitByte | releaseBus | onDone | provide | complete =>
    obtain ⟨_, _, _, hx⟩ := exec_exchanged rfl h
    exact hx.instrWrites

/-- Settles O41: each clause is read off the fields the instruction may write. -/
theorem registerFrame : Obligations.RegisterFrame := by
  intro i s t h
  have hwrites := exec_instrWrites h
  cases i with
  | handleReceive | handleTransmit => obtain rfl | rfl := hwrites <;> simp [Instr.format]
  | addrMatchWrite => obtain ⟨_, _, _, _, rfl⟩ := hwrites; simp [Instr.format]
  | dataRxAck | dataRxNack => obtain ⟨_, _, _, _, _, rfl⟩ := hwrites; simp [Instr.format]
  | dataTxAck => obtain ⟨_, _, _, rfl⟩ := hwrites; simp [Instr.format]
  | addrMatchRead | unexpected => obtain ⟨_, _, rfl⟩ := hwrites; simp [Instr.format]
  | readStatus => obtain ⟨_, _, _, _, _, _, _, rfl⟩ := hwrites; simp [Instr.format]
  | receiveByte => obtain ⟨_, _, _, _, rfl⟩ := hwrites; simp [Instr.format]
  | transmitByte => obtain ⟨_, _, _, rfl⟩ := hwrites; simp [Instr.format]
  | releaseBus | onDone => obtain ⟨_, _, rfl⟩ := hwrites; simp [Instr.format]
  | provide => obtain ⟨_, _, _, _, _, _, _, _, rfl⟩ := hwrites; simp [Instr.format]
  | complete => obtain ⟨_, rfl⟩ := hwrites; simp [Instr.format]

end Sys2Proof.Machine
end

section
/-! The invariants that spec/10_state.md R43 lists, from `TraceInv`. -/

namespace Sys2Proof.Machine

/-! ## How far an invocation has come -/

/-- The four things the handler can hold: nothing; a command that has not committed; a committed receive; a committed transmit. -/
inductive Stage (s : State) : Prop
  | cleared (hclear : Cleared s)
  | uncommitted (harmed : s.armed = false) (hpos : s.pos = none)
  | receiving {pos cap : Nat} (hrx : HoldsRx s) (hpos : HasPos s pos cap)
  | transmitting {pos eff : Nat} (htx : HoldsTx s) (hsrc : HasSource s pos eff)

theorem PhaseInv.stage {p : Phase} {s : State} (h : PhaseInv p s) : Stage s := by
  cases p with
  | idle => exact .cleared h
  | rxCheck =>
    obtain ⟨-, harmed, hpos, -⟩ := h
    exact .uncommitted harmed hpos
  | txCheck | txProvide =>
    obtain ⟨-, harmed, ⟨hpos, -⟩, -⟩ := h
    exact .uncommitted harmed hpos
  | rxXfer | rxVerify =>
    obtain ⟨hrx, -, -, -, _, _, hpos, -⟩ := h
    exact .receiving hrx hpos
  | txXfer | txVerify =>
    obtain ⟨htx, -, -, _, _, hsrc, -⟩ := h
    exact .transmitting htx hsrc
  | finRelease =>
    obtain ⟨-, _, -, ⟨hrx, _, _, hpos, -⟩ | ⟨htx, _, _, hsrc, -⟩⟩ := h
    · exact .receiving hrx hpos
    · exact .transmitting htx hsrc
  | finDone =>
    obtain ⟨-, _, -, hrx, _, _, hpos, -⟩ := h
    exact .receiving hrx hpos
  | complete =>
    obtain ⟨_, -, ⟨-, hrx, _, _, hpos, -⟩ | ⟨-, htx, _, _, hsrc, -⟩ | ⟨harmed, -, -, hpos, -⟩ | ⟨harmed, -, -, hpos, -⟩⟩ := h
    · exact .receiving hrx hpos
    · exact .transmitting htx hsrc
    · exact .uncommitted harmed hpos
    · exact .uncommitted harmed hpos

theorem Cleared.pos_eq {s : State} (h : Cleared s) : s.pos = none := by
  obtain ⟨⟨-, hpos, -⟩, -⟩ := h
  exact hpos

theorem Cleared.armed_eq {s : State} (h : Cleared s) : s.armed = false := by
  obtain ⟨⟨-, -, -, -, -, -, harmed, -⟩, -⟩ := h
  exact harmed

/-- POS ≤ CAP when both hold values. -/
theorem Stage.pos_le_cap {s : State} {p c : Nat} (h : Stage s) (hp : s.pos = some p) (hc : s.cap = some c) : p ≤ c := by
  cases h with
  | cleared hclear => simp [hclear.pos_eq] at hp
  | uncommitted _ hpos => simp [hpos] at hp
  | receiving _ hpos =>
    obtain ⟨hp', hc', hle⟩ := hpos
    rw [hp, Option.some.injEq] at hp'
    rw [hc, Option.some.injEq] at hc'
    omega
  | transmitting _ hsrc =>
    obtain ⟨hp', -, hle, c', hc', hec, -⟩ := hsrc
    rw [hp, Option.some.injEq] at hp'
    rw [hc, Option.some.injEq] at hc'
    omega

/-- POS ≤ EFF ≤ CAP on transmit when POS and EFF hold values. -/
theorem Stage.pos_le_eff_le_cap {s : State} {p e : Nat} (h : Stage s) (he : s.eff = some e) (hp : s.pos = some p) :
    p ≤ e ∧ ∃ c, s.cap = some c ∧ e ≤ c := by
  cases h with
  | cleared hclear => simp [hclear.pos_eq] at hp
  | uncommitted _ hpos => simp [hpos] at hp
  | receiving hrx =>
    obtain ⟨-, heff, -⟩ := hrx
    simp [heff] at he
  | transmitting _ hsrc =>
    obtain ⟨hp', he', hle, c, hc, hec, -⟩ := hsrc
    obtain rfl := Option.some.inj (hp'.symm.trans hp)
    obtain rfl := Option.some.inj (he'.symm.trans he)
    exact ⟨hle, c, hc, hec⟩

/-! ## The first event of a committed invocation -/

/-- A committed receive or transmit began with the status of its own command (R43; 30_encoding.md R73). -/
def BeganWithOwnStatus (s : State) : Prop :=
  (s.kind = some .receive ∧ (invEvents s).head? = some (.readStatus 0x60#8)) ∨
    (s.kind = some .transmit ∧ (invEvents s).head? = some (.readStatus 0xA8#8))

theorem head_rxBegun_append (cap : Nat) (tmo : Timeout) (rounds : List (Byte × Byte)) (events : List Event) :
    (rxBegun cap tmo rounds ++ events).head? = some (.readStatus 0x60#8) := rfl

theorem head_txBegun_append (src : List Byte) (c len : Nat) (tmo : Timeout) (k : Nat) (events : List Event) :
    (txBegun src c len tmo k ++ events).head? = some (.readStatus 0xA8#8) := rfl

theorem RxLoopEnd.head_append {cap : Nat} {tmo : Timeout} {rounds : List (Byte × Byte)} {r : Bool} {loop : List Event}
    (h : RxLoopEnd cap tmo rounds r loop) (events : List Event) : (loop ++ events).head? = some (.readStatus 0x60#8) := by
  obtain ⟨-, -, rfl⟩ | ⟨-, -, rfl⟩ | ⟨-, -, _, _, -, rfl⟩ := h
  · exact head_rxBegun_append ..
  · rw [List.append_assoc, head_rxBegun_append]
  · rw [List.append_assoc, head_rxBegun_append]

theorem TxLoopEnd.head_append {src : List Byte} {c len : Nat} {tmo : Timeout} {k : Nat} {r : Bool} {loop : List Event}
    (h : TxLoopEnd src c len tmo k r loop) (events : List Event) : (loop ++ events).head? = some (.readStatus 0xA8#8) := by
  obtain ⟨-, -, rfl⟩ | ⟨-, -, _, -, rfl⟩ | ⟨-, -, _, _, -, -, rfl⟩ := h
  · exact head_txBegun_append ..
  · rw [List.append_assoc, head_txBegun_append]
  · rw [List.append_assoc, head_txBegun_append]

/-- At every phase where ARMED is 1, the events of the phase begin with the passed status check. -/
theorem ShapeAt.beganWithOwnStatus {p : Phase} {s : State} (hshape : ShapeAt p s) (hinv : PhaseInv p s) (harmed : s.armed = true) :
    BeganWithOwnStatus s := by
  cases p with
  | idle => simp [Cleared.armed_eq hinv] at harmed
  | rxCheck | txCheck | txProvide =>
    obtain ⟨-, hunarmed, -⟩ := hinv
    simp [hunarmed] at harmed
  | rxXfer =>
    obtain ⟨⟨hkind, -⟩, -⟩ := hinv
    obtain ⟨_, _, _, _, -, hev⟩ := hshape
    exact .inl ⟨hkind, by rw [hev]; rfl⟩
  | rxVerify =>
    obtain ⟨⟨hkind, -⟩, -⟩ := hinv
    obtain ⟨_, _, _, _, _, -, -, hev⟩ := hshape
    exact .inl ⟨hkind, by rw [hev, head_rxBegun_append]⟩
  | txXfer =>
    obtain ⟨⟨hkind, -⟩, -⟩ := hinv
    obtain ⟨_, _, _, _, _, -, hev⟩ := hshape
    exact .inr ⟨hkind, by rw [hev]; rfl⟩
  | txVerify =>
    obtain ⟨⟨hkind, -⟩, -⟩ := hinv
    obtain ⟨_, _, _, _, _, _, -, -, hev⟩ := hshape
    exact .inr ⟨hkind, by rw [hev, head_txBegun_append]⟩
  | finRelease =>
    obtain ⟨_, -, ⟨hkind, _, _, _, _, -, hend⟩ | ⟨hkind, _, _, _, _, _, -, hend⟩⟩ := hshape
    · exact .inl ⟨hkind, by simpa using hend.head_append []⟩
    · exact .inr ⟨hkind, by simpa using hend.head_append []⟩
  | finDone =>
    obtain ⟨-, _, -, ⟨hkind, -⟩, -⟩ := hinv
    obtain ⟨_, -, _, _, _, _, _, -, hend, hev⟩ := hshape
    exact .inl ⟨hkind, by rw [hev, hend.head_append]⟩
  | complete =>
    obtain ⟨_, -, ⟨hunarmed, -⟩ | ⟨-, hkind, _, _, _, _, _, -, hend, hev⟩ | ⟨-, hkind, _, _, _, _, _, _, -, hend, hev⟩⟩ := hshape
    · simp [hunarmed] at harmed
    · exact .inl ⟨hkind, by rw [hev, hend.head_append]⟩
    · exact .inr ⟨hkind, by rw [hev, hend.head_append]⟩

/-! ## The list -/

/-- A state that meets the invariant has the registers of the phase it is at. -/
theorem HandlerInv.phaseInv {p : Phase} {s : State} (h : HandlerInv s) (hp : AtPhase p s) : PhaseInv p s := by
  obtain ⟨-, -, q, hq, hinv⟩ := h
  exact atPhase_unique hq hp ▸ hinv

theorem receiving_pos_lt_cap {s : State} (h : HandlerInv s) (hp : AtPhase .rxXfer s ∨ AtPhase .rxVerify s) :
    ∃ p c, s.pos = some p ∧ s.cap = some c ∧ p < c := by
  obtain hp | hp := hp <;>
  · obtain ⟨-, -, -, -, p, c, ⟨hpos, hcap, -⟩, hlt⟩ := h.phaseInv hp
    exact ⟨p, c, hpos, hcap, hlt⟩

theorem transmitting_pos_lt_eff {s : State} (h : HandlerInv s) (hp : AtPhase .txXfer s ∨ AtPhase .txVerify s) :
    ∃ p e, s.pos = some p ∧ s.eff = some e ∧ p < e := by
  obtain hp | hp := hp <;>
  · obtain ⟨-, -, -, p, e, ⟨hpos, heff, -⟩, hlt⟩ := h.phaseInv hp
    exact ⟨p, e, hpos, heff, hlt⟩

theorem armed_at_armedPhases {s : State} (h : HandlerInv s) (hp : AtPhase .rxXfer s ∨ AtPhase .rxVerify s ∨ AtPhase .txXfer s ∨
    AtPhase .txVerify s ∨ AtPhase .finRelease s ∨ AtPhase .finDone s) : s.armed = true := by
  obtain hp | hp | hp | hp | hp | hp := hp <;> exact (h.phaseInv hp).armed_eq (by decide)

/-- Settles O45: the bounds are the stage's or the phase's, and the first event is the shape's. -/
theorem invariantGivesR43 : Obligations.InvariantGivesR43 := by
  intro s ⟨hinv, _, hshape⟩
  obtain ⟨-, -, p, hp, hphase⟩ := (handlerInv_iff s).mp hinv
  exact ⟨fun _ _ => hphase.stage.pos_le_cap, fun _ _ _ => hphase.stage.pos_le_eff_le_cap, receiving_pos_lt_cap hinv,
    transmitting_pos_lt_eff hinv, (hshape p hp).beganWithOwnStatus hphase, armed_at_armedPhases hinv,
    fun hidle => Cleared.armed_eq (hinv.phaseInv hidle)⟩

end Sys2Proof.Machine
end

section
/-! A step runs the instruction that what arrives decodes to (spec/10_state.md R23, spec/43_interface.md R210). -/

namespace Sys2Proof.Machine

/-- A step at a legal phase fetches there. -/
theorem fetch_atPhase {p : Phase} {s : State} (hp : AtPhase p s) : fetch s = fetchAt p s := by
  unfold AtPhase at hp
  simp [fetch, hp]

/-- A well-formed item is run. -/
theorem fetchItem_wellFormed {item : Packet} {i : Instr} {s : State} (hd : decode item = .ok i)
    (hwf : i.wellFormed s.params = true) : fetchItem item s = .run i s := by
  simp [fetchItem, hd, hwf]

/-- A step executes what it fetches to run. -/
theorem step_of_fetch_run {s s' : State} {i : Instr} (h : fetch s = .run i s') : step s = exec i s' := by
  simp [step, h]

/-- Settles O7: a command, an answer and the silence at COMPLETE are each fetched as their decoded instruction. -/
theorem stepRunsDecodedInstruction : Obligations.StepRunsDecodedInstruction := by
  refine ⟨fun s p w rest i hp hin hd hwf => ?_, fun s p a rest code i hp hin hcode hd hwf => ?_, fun s hp hin => ?_⟩ <;>
    apply step_of_fetch_run <;> rw [fetch_atPhase hp]
  · simpa [fetchAt, hin] using fetchItem_wellFormed (s := { s with inbox := rest }) hd hwf
  · simpa [fetchAt, hin, fetchAnswer, hcode] using fetchItem_wellFormed (s := { s with inbox := rest }) hd hwf
  · simpa [fetchAt, hin, fetchSilent] using fetchItem_wellFormed (item := .evt 0x7#4 .nothing) (i := .complete) (s := s) rfl rfl

end Sys2Proof.Machine
end

section
/-! Who writes host memory and TXSRC (spec/20_memory.md R50, R51, R58, R64). -/

namespace Sys2Proof.Machine

/-- The one store of the handler: the byte in LATCH at RXBUF[POS], with POS below CAP (R58, 41_receive.md R134). -/
def StoresLatch (s t : State) : Prop :=
  ∃ buf pos cap b, s.rxbuf = some buf ∧ s.pos = some pos ∧ s.cap = some cap ∧ pos < cap ∧ s.latch = some b ∧
    t.mem = writeByte s.mem (rxAddr buf pos) b

theorem StoresLatch.readByte_other {s t : State} {buf : Ref} {pos a : Nat} (h : StoresLatch s t) (hbuf : s.rxbuf = some buf)
    (hpos : s.pos = some pos) (ha : a ≠ rxAddr buf pos) : readByte t.mem a = readByte s.mem a := by
  obtain ⟨_, _, _, b, hbuf', hpos', -, -, -, hmem⟩ := h
  obtain rfl := Option.some.inj (hbuf.symm.trans hbuf')
  obtain rfl := Option.some.inj (hpos.symm.trans hpos')
  rw [hmem, readByte_writeByte_other _ b ha]

/-- Dispatch writes host memory only where RX_VERIFY accepts a data status. -/
theorem Dispatched.mem_eq_or_stores {s t : State} {p : Phase} {ev : StatusEvent} (h : Dispatched s p ev t) :
    t.mem = s.mem ∨ (p = .rxVerify ∧ (ev = .dataRxAck ∨ ev = .dataRxNack) ∧ StoresLatch s t) := by
  cases h with
  | rejected | matched => exact .inl rfl
  | committed hnext => obtain ⟨_, _, rfl⟩ := rxNext_frame hnext; exact .inl rfl
  | sent _ hnext => obtain ⟨_, _, rfl⟩ := txNext_frame hnext; exact .inl rfl
  | stored hev hbuf hpos hcap hlatch hlt hnext =>
    obtain ⟨_, _, rfl⟩ := rxNext_frame hnext
    exact .inr ⟨rfl, hev, _, _, _, _, hbuf, hpos, hcap, hlt, hlatch, rfl⟩

/-- An exchange writes host memory only as READ_STATUS with a status that RX_VERIFY accepts. -/
theorem Exchanged.mem_eq_or_stores {s t : State} {i : Instr} {p : Phase} {e : Event} (h : Exchanged s i p e t) :
    t.mem = s.mem ∨ (p = .rxVerify ∧ (∃ v, i = .readStatus v ∧ RxGood v) ∧ StoresLatch s t) := by
  cases h with
  | @readStatus v _ _ hd => exact hd.mem_eq_or_stores.imp_right fun ⟨hp, hev, hstore⟩ => ⟨hp, ⟨v, rfl, hev⟩, hstore⟩
  | @receiveByte answer => cases answer <;> exact .inl rfl
  | @transmitByte ok => cases ok <;> exact .inl rfl
  | releaseBus | onDone | complete => exact .inl rfl
  | provide hnext => obtain ⟨_, _, rfl⟩ := txNext_frame hnext; exact .inl rfl

/-! ## The frame of a step -/

/-- The statuses RX_VERIFY accepts are 0x80 and 0x88 (30_encoding.md R73). -/
theorem rxGood_iff (v : Byte) : RxGood v ↔ v = 0x80#8 ∨ v = 0x88#8 :=
  or_congr (decode8_eq_iff v .dataRxAck (by decide)) (decode8_eq_iff v .dataRxNack (by decide))

/-- READ_STATUS is decoded from the status it carries. -/
theorem eq_status_of_decodeEvt {code : BitVec 4} {a : Answer} {v : Byte} (h : decodeEvt code a = .ok (.readStatus v)) :
    a = .status v := by
  unfold decodeEvt at h
  split at h
  case h_1 =>
    split at h <;> cases h
    rfl
  case h_8 => cases h
  all_goals split at h <;> cases h

/-- A step that runs READ_STATUS took a status answer from the inbox. -/
theorem Answered.head_status {s : State} {p : Phase} {v : Byte} {rest : List Input} (h : Answered s p (.readStatus v) rest) :
    s.inbox.head? = some (.answer (.status v)) := by
  obtain ⟨-, -, -, hi⟩ | ⟨a, _, hin, -, hd⟩ := h
  · cases hi
  · rw [hin, eq_status_of_decodeEvt hd]; rfl

/-- Settles O39: only an exchange at RX_VERIFY and a host write change host memory, each by one `writeByte`. -/
theorem memoryFrame : Obligations.MemoryFrame := by
  intro s t hstep
  obtain ⟨p, hp, h⟩ := step_stepped hstep
  cases h with
  | receiveAccepted | transmitAccepted | busy | reset => exact .inl fun _ => rfl
  | exchanged hin _ hrun =>
    obtain hmem | ⟨rfl, ⟨v, rfl, hgood⟩, buf, pos, cap, b, hbuf, hpos, hcap, hlt, hlatch, hmem⟩ := hrun.mem_eq_or_stores
    · exact .inl fun a => by rw [hmem]
    · exact .inr (.inl ⟨buf, pos, cap, b, v, hp, hin.head_status, (rxGood_iff v).mp hgood, hbuf, hpos, hcap, hlt, hlatch,
        hmem ▸ readByte_writeByte_same .., fun a ha => hmem ▸ readByte_writeByte_other _ b ha⟩)
  | @hostWrite addr v _ hin =>
    exact .inr (.inr ⟨addr, v, hp, by simp [hin], readByte_writeByte_same .., fun a ha => readByte_writeByte_other _ v ha⟩)

/-! ## The frame of an instruction -/

/-- An instruction writes host memory only where it stores the byte in LATCH. -/
theorem exec_mem_eq_or_stores {i : Instr} {s t : State} (h : exec i s = .next t) :
    t.mem = s.mem ∨ (¬StoresNothing i ∧ StoresLatch s t) := by
  cases i with
  | handleReceive | handleTransmit => obtain rfl | rfl := takeCommand_accepts_or_refuses h <;> exact .inl rfl
  | dataRxAck =>
    obtain ⟨_, _, hd⟩ := dispatchStatus_dispatched h
    exact hd.mem_eq_or_stores.imp_right fun ⟨_, _, hstore⟩ => ⟨fun ⟨hack, _⟩ => hack rfl, hstore⟩
  | dataRxNack =>
    obtain ⟨_, _, hd⟩ := dispatchStatus_dispatched h
    exact hd.mem_eq_or_stores.imp_right fun ⟨_, _, hstore⟩ => ⟨fun ⟨_, hnack, _⟩ => hnack rfl, hstore⟩
  | addrMatchWrite | addrMatchRead | dataTxAck | unexpected =>
    obtain ⟨_, _, hd⟩ := dispatchStatus_dispatched h
    exact hd.mem_eq_or_stores.imp_right fun ⟨_, hev, _⟩ => by simp at hev
  | readStatus | receiveByte | transmitByte | releaseBus | onDone | provide | complete =>
    obtain ⟨_, _, _, hx⟩ := exec_exchanged rfl h
    exact hx.mem_eq_or_stores.imp_right fun ⟨_, ⟨v, hi, hgood⟩, hstore⟩ => ⟨fun ⟨_, _, hbad⟩ => hbad v hi hgood, hstore⟩

/-- TXSRC is written by PROVIDE and COMPLETE only (R51, R52). -/
theorem Exchanged.txsrc_eq {s t : State} {i : Instr} {p : Phase} {e : Event} (h : Exchanged s i p e t)
    (hprovide : ∀ src c len, i ≠ .provide src c len) (hcomplete : i ≠ .complete) : t.txsrc = s.txsrc := by
  cases h with
  | readStatus hd => exact hd.txsrc_eq
  | @receiveByte answer => cases answer <;> rfl
  | @transmitByte ok => cases ok <;> rfl
  | releaseBus | onDone => rfl
  | @provide src c len => exact absurd rfl (hprovide src c len)
  | complete => exact absurd rfl hcomplete

theorem exec_txsrc_eq {i : Instr} {s t : State} (h : exec i s = .next t) (hprovide : ∀ src c len, i ≠ .provide src c len)
    (hcomplete : i ≠ .complete) : t.txsrc = s.txsrc := by
  cases i with
  | handleReceive | handleTransmit => obtain rfl | rfl := takeCommand_accepts_or_refuses h <;> rfl
  | addrMatchWrite | dataRxAck | dataRxNack | addrMatchRead | dataTxAck | unexpected =>
    obtain ⟨_, _, hd⟩ := dispatchStatus_dispatched h
    exact hd.txsrc_eq
  | readStatus | receiveByte | transmitByte | releaseBus | onDone | provide | complete =>
    obtain ⟨_, _, _, hx⟩ := exec_exchanged rfl h
    exact hx.txsrc_eq hprovide hcomplete

/-- Settles O40: an instruction leaves host memory or stores the byte in LATCH at RXBUF[POS]. -/
theorem instructionMemoryFrame : Obligations.InstructionMemoryFrame := by
  intro i s t h
  refine ⟨fun hnothing a => ?_, fun buf pos hbuf hpos a ha => ?_, exec_txsrc_eq h⟩ <;>
    obtain hmem | ⟨hi, hstore⟩ := exec_mem_eq_or_stores h
  · rw [hmem]
  · exact absurd hnothing hi
  · rw [hmem]
  · exact hstore.readByte_other hbuf hpos ha

/-! ## The host's own write -/

/-- A step at a legal phase with a host write at the head of the inbox fetches that write. -/
theorem fetch_hostWrite {p : Phase} {s : State} {addr : Nat} {v : Byte} {rest : List Input} (hp : AtPhase p s)
    (hin : s.inbox = .hostWrite addr v :: rest) : fetch s = fetchHostWrite p addr v { s with inbox := rest } := by
  simp [fetch_atPhase hp, fetchAt, hin]

theorem fetchHostWrite_refused {p : Phase} (hp : p ≠ .idle) (addr : Nat) (v : Byte) (s : State) :
    fetchHostWrite p addr v s = .refused .hostWriteDuringInvocation := by
  unfold fetchHostWrite
  split
  · exact absurd rfl hp
  · rfl

/-- Settles O11: at IDLE the write is the step's whole effect, and every other phase refuses it. -/
theorem hostWritesOnlyAtIdle : Obligations.HostWritesOnlyAtIdle := by
  intro s p addr v rest hp hin
  have hfetch := fetch_hostWrite hp hin
  refine ⟨fun hidle => ?_, fun hbusy => ?_⟩
  · subst hidle
    have hstep : step s = .next { s with inbox := rest, mem := writeByte s.mem addr v } := by
      simp [step, hfetch, fetchHostWrite]
    exact ⟨_, hstep, readByte_writeByte_same .., fun a ha => readByte_writeByte_other _ v ha, rfl⟩
  · simp [step, hfetch, fetchHostWrite_refused hbusy]

end Sys2Proof.Machine
end

section
/-! What a receive's events show to be accepted (spec/20_memory.md R54, R59). -/

namespace Sys2Proof.Machine

/-- The bytes of accepted rounds are accepted, in order, whatever events follow. -/
theorem acceptedBytes_rxRounds_append (cap : Nat) (tmo : Timeout) (i : Nat) {rounds : List (Byte × Byte)} (events : List Event)
    (h : RxAccepted rounds) :
    acceptedBytes (rxRounds cap tmo i rounds ++ events) = rounds.map Prod.fst ++ acceptedBytes events := by
  induction rounds generalizing i with
  | nil => rfl
  | cons r rest ih =>
    obtain ⟨hr, hrest⟩ := List.forall_mem_cons.mp h
    unfold RxGood at hr
    simp [rxRounds, acceptedBytes, hr, ih (i + 1) hrest]

theorem acceptedBytes_rxBegun_append (cap : Nat) (tmo : Timeout) {rounds : List (Byte × Byte)} (events : List Event)
    (h : RxAccepted rounds) :
    acceptedBytes (rxBegun cap tmo rounds ++ events) = rounds.map Prod.fst ++ acceptedBytes events :=
  acceptedBytes_rxRounds_append cap tmo 0 events h

/-- However the receive loop ends, the accepted bytes are those of its rounds: a byte that failed or whose status was rejected is
not among them (R59). -/
theorem RxLoopEnd.acceptedBytes_append {cap : Nat} {tmo : Timeout} {rounds : List (Byte × Byte)} {r : Bool} {loop : List Event}
    (h : RxLoopEnd cap tmo rounds r loop) (hacc : RxAccepted rounds) (events : List Event) :
    acceptedBytes (loop ++ events) = rounds.map Prod.fst ++ acceptedBytes events := by
  obtain ⟨-, -, rfl⟩ | ⟨-, -, rfl⟩ | ⟨-, -, b, u, hbad, rfl⟩ := h
  · exact acceptedBytes_rxBegun_append cap tmo events hacc
  · rw [List.append_assoc, acceptedBytes_rxBegun_append cap tmo _ hacc]
    simp [acceptedBytes]
  · rw [List.append_assoc, acceptedBytes_rxBegun_append cap tmo _ hacc]
    unfold RxGood at hbad
    simp [acceptedBytes, hbad]

/-- The stored rounds read back from the buffer by index. -/
theorem RxStored.readByte_of_getElem? {mem : Memory} {buf : Ref} {rounds : List (Byte × Byte)} {i : Nat} {b : Byte}
    (h : RxStored mem buf rounds) (hb : (rounds.map Prod.fst)[i]? = some b) : readByte mem (rxAddr buf i) = some b := by
  rw [List.getElem?_map, Option.map_eq_some_iff] at hb
  obtain ⟨r, hr, rfl⟩ := hb
  exact h i r hr

/-- ON_DONE at FIN_DONE emits the buffer and POS, and goes to COMPLETE (43_interface.md R215). -/
theorem execOnDone_at {s : State} {buf : Ref} {pos : Nat} (hp : AtPhase .finDone s) (hbuf : s.rxbuf = some buf)
    (hpos : s.pos = some pos) : exec .onDone s = .next (goto .complete (emit (.onDone buf pos) s)) := by
  show execOnDone s = _
  rw [execOnDone, atPhase_at hp, hbuf, hpos]
  rfl

/-- Settles O50: the events at FIN_DONE are a loop's and a release, and the accepted bytes are those of the loop's stored rounds. -/
theorem callbackFindsAcceptedBytes : Obligations.CallbackFindsAcceptedBytes := by
  intro s buf ⟨_, _, hshape⟩ hp hbuf
  obtain ⟨_, -, buf', cap, tmo, rounds, loop, ⟨hbuf', -, -, hpos, -, hacc, hstored⟩, hend, hev⟩ := hshape _ hp
  obtain rfl := Option.some.inj (hbuf.symm.trans hbuf')
  have hbytes : acceptedBytes (invEvents s) = rounds.map Prod.fst := by
    rw [hev, hend.acceptedBytes_append hacc]
    simp [acceptedBytes]
  refine ⟨_, execOnDone_at hp hbuf hpos, by simp [hbytes], fun i b hb => ?_⟩
  rw [hbytes] at hb
  exact hstored.readByte_of_getElem? hb

end Sys2Proof.Machine
end

section
/-! The decoder and the encoder undo each other (spec/30_encoding.md R70 to R73, R77, R78). -/

namespace Sys2Proof

/-! ## The fields -/

theorem boolOfBit_bitOfBool (b : Bool) : boolOfBit (bitOfBool b) = b := by cases b <;> rfl

theorem bitOfBool_boolOfBit (b : Bit) : bitOfBool (boolOfBit b) = b := by
  obtain rfl | rfl := BitVec.eq_zero_or_eq_one b <;> rfl

/-- A status value is UNEXPECTED exactly when it is no defined event's code. -/
theorem decode8_eq_unexpected_iff (v : Byte) : decode8 v = .unexpected ↔ ∀ ev, ev ≠ .unexpected → v ≠ statusCode ev := by
  constructor
  · rintro h ev hev rfl
    exact hev ((decode8_statusCode ev).symm.trans h)
  · intro h
    by_contra hne
    exact h _ hne ((decode8_eq_iff v _ hne).mp rfl)

/-! ## Decoding what was encoded -/

/-- Well-formedness matters for UNEXPECTED alone: with a defined code it would decode to that code's event. -/
theorem decode_encode {p : Params} {i : Instr} (h : i.wellFormed p = true) : decode (encode i) = .ok i := by
  cases i with
  | handleReceive | handleTransmit => rfl
  | addrMatchWrite | dataRxAck | dataRxNack | addrMatchRead | dataTxAck => rfl
  | unexpected s =>
    have hs : decode8 s = .unexpected := by simpa [Instr.wellFormed] using h
    simp [encode, decode, decodeStatus, hs]
  | receiveByte answer => cases answer <;> rfl
  | transmitByte ok => exact congrArg (fun b => Except.ok (Instr.transmitByte b)) (boolOfBit_bitOfBool ok)
  | readStatus | releaseBus | onDone | provide | complete => rfl

/-! ## Encoding what was decoded -/

/-- The command is selected by OP alone, and BUF and CAPACITY of HANDLE_TRANSMIT are dropped (R70). -/
theorem encode_decodeCmd (w : CmdWord) : encode (decodeCmd w) = (Packet.cmd w).canonical := by
  obtain ⟨op, buf, capacity, timeout⟩ := w
  obtain rfl | rfl := BitVec.eq_zero_or_eq_one op <;> rfl

/-- Every status value is written back as it was, UNEXPECTED's too (R73). -/
theorem encode_decodeStatus (v : Byte) : encode (decodeStatus v) = .status8 v := by
  unfold decodeStatus
  split
  case h_6 => rfl
  all_goals
    rename_i hev
    exact congrArg Packet.status8 ((decode8_eq_iff v _ (by decide)).mp hev).symm

/-- B of a failed RECEIVE_BYTE is dropped (R72). -/
theorem encode_receiveByte_decodeByteAnswer (ok : Bit) (b : Byte) :
    encode (.receiveByte (decodeByteAnswer ok b)) = (Packet.evt 0x2#4 (.byte ok b)).canonical := by
  obtain rfl | rfl := BitVec.eq_zero_or_eq_one ok <;> rfl

/-- An event's code and answer shape are those of the instruction it decodes to (R72). -/
theorem encode_of_decodeEvt {code : BitVec 4} {a : Answer} {i : Instr} (h : decodeEvt code a = .ok i) :
    encode i = (Packet.evt code a).canonical := by
  unfold decodeEvt at h
  split at h
  case h_8 => cases h
  all_goals
    rename_i hcode
    obtain ⟨-, rfl⟩ := BitVec.toNat_eq_nat.mp hcode
    split at h <;> cases h
  · rfl
  · exact encode_receiveByte_decodeByteAnswer _ _
  · exact congrArg (fun b => Packet.evt 0x3#4 (.ok b)) (bitOfBool_boolOfBit _)
  all_goals rfl

theorem encode_of_decode {item : Packet} {i : Instr} (h : decode item = .ok i) : encode i = item.canonical := by
  cases item with
  | cmd w => cases h; exact encode_decodeCmd w
  | status8 s => cases h; exact encode_decodeStatus s
  | evt code a => exact encode_of_decodeEvt h

/-- Settles O4: each instruction round-trips, and each format's items are written back up to the fields without meaning. -/
theorem decodeAndEncodeAgree : Obligations.DecodeAndEncodeAgree :=
  ⟨fun _ _ => decode_encode, fun _ _ => encode_of_decode⟩

/-! ## Status values, reserved event codes and the spec's words -/

/-- Settles O3: the five codes are the table's rows, and a value that is none of them is UNEXPECTED. -/
theorem statusByteDecodes : Obligations.StatusByteDecodes := by
  intro v
  split_ifs with h60 h80 h88 hA8 hB8
  case neg =>
    refine (decode8_eq_unexpected_iff v).mpr fun ev hev => ?_
    cases ev with
    | addrMatchWrite => exact h60
    | dataRxAck => exact h80
    | dataRxNack => exact h88
    | addrMatchRead => exact hA8
    | dataTxAck => exact hB8
    | unexpected => exact absurd rfl hev
  all_goals
    subst v
    rfl

/-- The decoder has no row for 0x0 and for 0x8 to 0xF, whatever the answer (R72, R78). -/
theorem decodeEvt_reserved {code : BitVec 4} (h : code = 0x0#4 ∨ 0x8 ≤ code.toNat) (a : Answer) :
    decodeEvt code a = .error (.reservedEvtCode code) := by
  have hrow : code.toNat = 0 ∨ 8 ≤ code.toNat := h.imp_left (congrArg BitVec.toNat)
  unfold decodeEvt
  split
  case h_8 => rfl
  all_goals omega

theorem eventCode_mem_range (e : Machine.Event) : 0x1 ≤ (Machine.eventCode e).toNat ∧ (Machine.eventCode e).toNat ≤ 0x7 := by
  cases e <;> simp [Machine.eventCode]

/-- Settles O5: the decoder has no row for a reserved code, and every event's code is that of a row. -/
theorem reservedEventCodesRefused : Obligations.ReservedEventCodesRefused :=
  ⟨fun _ a h => decodeEvt_reserved h a, eventCode_mem_range⟩

/-- Settles O6: the decoder computes each of the eight words. -/
theorem specWordsDecode : Obligations.SpecWordsDecode :=
  ⟨rfl, rfl, rfl, rfl, rfl, rfl, rfl, rfl⟩

end Sys2Proof
end

section
/-! A reserved PHASE code stops every step and every instruction (spec/30_encoding.md R78, spec/60_exceptions.md R259). -/

namespace Sys2Proof.Machine

theorem step_reserved {s : State} (h : phaseOfCode s.phase = none) : step s = .fault .phaseReserved := by
  simp [step, fetch, h]

theorem takeCommand_reserved {s : State} (h : phaseOfCode s.phase = none) (accept : State → State) :
    takeCommand accept s = .fault .phaseReserved := by
  simp [takeCommand, h]

theorem dispatchStatus_reserved {s : State} (h : phaseOfCode s.phase = none) (ev : StatusEvent) :
    dispatchStatus ev s = .fault .phaseReserved := by
  simp [dispatchStatus, h]

theorem execReadStatus_reserved {s : State} (h : phaseOfCode s.phase = none) (v : Byte) :
    execReadStatus v s = .fault .phaseReserved := by
  simp [execReadStatus, h]

theorem atPhase_reserved {s : State} (h : phaseOfCode s.phase = none) (p : Phase) (body : Outcome) :
    atPhase p body s = .fault .phaseReserved := by
  simp [atPhase, h]

/-- Every instruction reads PHASE first: a command in `takeCommand`, a status event in `dispatchStatus`, READ_STATUS itself, and
the body of every other event in `atPhase`. -/
theorem exec_reserved {s : State} (h : phaseOfCode s.phase = none) (i : Instr) : exec i s = .fault .phaseReserved := by
  cases i with
  | handleReceive | handleTransmit => exact takeCommand_reserved h _
  | addrMatchWrite | dataRxAck | dataRxNack | addrMatchRead | dataTxAck | unexpected => exact dispatchStatus_reserved h _
  | readStatus v => exact execReadStatus_reserved h v
  | receiveByte | transmitByte | releaseBus | onDone | provide | complete => exact atPhase_reserved h _ _

/-- Settles O9: a code at or above 0xB names no phase, so nothing runs. -/
theorem reservedPhaseFaults : Obligations.ReservedPhaseFaults := by
  intro s hs
  have hnone := phaseOfCode_reserved hs
  exact ⟨step_reserved hnone, exec_reserved hnone⟩

end Sys2Proof.Machine
end

section
/-! The computed values: the acknowledge intents and the effective length (spec/30_encoding.md R76). -/

namespace Sys2Proof.Machine

theorem ackRx_eq_false_iff (pos cap : Nat) : ackRx pos cap = false ↔ cap ≤ pos + 1 := by simp [ackRx]

theorem ackTx_eq_false_iff (pos eff : Nat) : ackTx pos eff = false ↔ eff ≤ pos + 1 := by simp [ackTx]

/-- Settles O35: the intent is 0 from the last position on, and a position in range is not beyond it. -/
theorem ackIntentIsFalseOnlyAtLast : Obligations.AckIntentIsFalseOnlyAtLast := by
  intro pos n hpos
  have hlast : n ≤ pos + 1 ↔ pos = n - 1 := by omega
  exact ⟨(ackRx_eq_false_iff pos n).trans hlast, (ackTx_eq_false_iff pos n).trans hlast⟩

/-- Settles O36: EFF is the minimum of L and C. -/
theorem effectiveLengthIsClamped : Obligations.EffectiveLengthIsClamped := by
  intro len c
  exact ⟨Nat.min_le_right len c, fun h => Nat.min_eq_left h.le, fun h => Nat.min_eq_right h, Nat.zero_min c, Nat.min_zero len⟩

end Sys2Proof.Machine
end

section
/-! The dispatch of a status value and the effect of each status event (spec/40_status_decode.md R100 to R110). -/

namespace Sys2Proof.Machine

/-! ## Dispatch is membership in the expected set -/

/-- Every status instruction is dispatch on its event (R101). -/
theorem exec_decodeStatus (v : Byte) (s : State) : exec (decodeStatus v) s = dispatchStatus (decode8 v) s := by
  unfold decodeStatus
  split
  all_goals
    rename_i hev
    rw [hev]
    rfl

theorem dispatchStatus_accepted {p : Phase} {evs : List StatusEvent} {ev : StatusEvent} {s : State} (hp : AtPhase p s)
    (hset : expectedAt p = some evs) (hev : ev ∈ evs) : dispatchStatus ev s = onAccept p s :=
  (dispatchStatus_at hp hset ev).trans (if_pos hev)

theorem dispatchStatus_rejected {p : Phase} {evs : List StatusEvent} {ev : StatusEvent} {s : State} (hp : AtPhase p s)
    (hset : expectedAt p = some evs) (hev : ev ∉ evs) : dispatchStatus ev s = .next (finish false s) :=
  (dispatchStatus_at hp hset ev).trans (if_neg hev)

/-- The table of R102, by status code: a set's one or two events are decoded from their codes only (30_encoding.md R73). -/
theorem decode8_mem_expectedAt_iff {p : Phase} {evs : List StatusEvent} (hset : expectedAt p = some evs) (v : Byte) :
    decode8 v ∈ evs ↔
      (p = .rxCheck ∧ v = 0x60#8) ∨ (p = .rxVerify ∧ (v = 0x80#8 ∨ v = 0x88#8)) ∨ (p = .txCheck ∧ v = 0xA8#8) ∨
        (p = .txVerify ∧ v = 0xB8#8) := by
  cases p <;> cases hset
  case rxCheck => simpa using show decode8 v = .addrMatchWrite ↔ v = 0x60#8 from decode8_eq_iff v _ (by decide)
  case rxVerify => simpa using show decode8 v = .dataRxAck ∨ decode8 v = .dataRxNack ↔ v = 0x80#8 ∨ v = 0x88#8 from rxGood_iff v
  case txCheck => simpa using show decode8 v = .addrMatchRead ↔ v = 0xA8#8 from decode8_eq_iff v _ (by decide)
  case txVerify => simpa using show decode8 v = .dataTxAck ↔ v = 0xB8#8 from decode8_eq_iff v _ (by decide)

/-- Settles O24: the expected sets are those of the table, and the decoded instruction is dispatch on the decoded event. -/
theorem dispatchTable : Obligations.DispatchTable := by
  intro s p evs v hp hset
  rw [exec_decodeStatus]
  exact ⟨decode8_mem_expectedAt_iff hset v, dispatchStatus_rejected hp hset, dispatchStatus_accepted hp hset⟩

/-- Settles O8: both sides are dispatch on the decoded event, after the event was put in the trace. -/
theorem statusAnswerRunsItsEvent : Obligations.StatusAnswerRunsItsEvent := by
  intro s p evs v hp hset
  rw [exec_decodeStatus]
  exact execReadStatus_at hp hset v

/-! ## What the four phases do on accept -/

/-- `finish` with PHASE written by its code (41_receive.md R136). -/
theorem finish_eq (r : Bool) (s : State) :
    finish r s = { s with result := some r, phase := if s.armed then 0x8#4 else 0xA#4 } := by
  unfold finish
  cases s.armed <;> rfl

/-- After the commitment ARMED is 1, so an empty buffer goes to FIN_RELEASE (R104, 41_receive.md R132). -/
theorem acceptRxCheck_of {s : State} {cap : Nat} (hcap : s.cap = some cap) :
    acceptRxCheck s = .next
      (if 0 < cap then { s with armed := true, pos := some 0, phase := 0x2#4 }
      else { s with armed := true, pos := some 0, result := some true, phase := 0x8#4 }) :=
  rxNext_of rfl hcap

/-- The store and the loop test, whatever the acknowledge intent was (R109, 41_receive.md R134). -/
theorem acceptRxVerify_of {s : State} {buf : Ref} {pos cap : Nat} {b : Byte} (hbuf : s.rxbuf = some buf) (hpos : s.pos = some pos)
    (hcap : s.cap = some cap) (hlatch : s.latch = some b) (hlt : pos < cap) (hbound : cap < s.params.idxBound) :
    acceptRxVerify s = .next (afterStore buf pos cap b s) := by
  have hpos' : (storeLatch buf pos b s).pos = some (pos + 1) := by simp [nextPos_of_lt hlt hbound]
  have haccept : acceptRxVerify s = rxNext (storeLatch buf pos b s) := by simp [acceptRxVerify, hbuf, hpos, hcap, hlatch, hlt]
  rw [haccept, rxNext_of hpos' hcap, finish_eq, storeLatch, nextPos_of_lt hlt hbound]
  rfl

/-- POS advances and the loop test follows (R108, 42_transmit.md R175). -/
theorem acceptTxVerify_of {s : State} {pos eff : Nat} (hpos : s.pos = some pos) (heff : s.eff = some eff) (hlt : pos < eff)
    (hbound : eff < s.params.idxBound) :
    acceptTxVerify s = .next
      (if pos + 1 < eff then { s with pos := some (pos + 1), phase := 0x6#4 }
      else { s with pos := some (pos + 1), result := some true, phase := if s.armed then 0x8#4 else 0xA#4 }) := by
  have hpos' : (advancePos pos s).pos = some (pos + 1) := by simp [nextPos_of_lt hlt hbound]
  rw [acceptTxVerify, hpos, withReg_some, txNext_of hpos' heff, finish_eq, advancePos, nextPos_of_lt hlt hbound]
  rfl

/-! ## The effect of each status event -/

/-- RX_VERIFY's two events have one meaning (R105, R106). -/
theorem dispatchStatus_rxVerify {ev : StatusEvent} {s : State} {buf : Ref} {pos cap : Nat} {b : Byte}
    (hev : ev ∈ [StatusEvent.dataRxAck, .dataRxNack]) (hp : AtPhase .rxVerify s) (hbuf : s.rxbuf = some buf)
    (hpos : s.pos = some pos) (hcap : s.cap = some cap) (hlatch : s.latch = some b) (hlt : pos < cap)
    (hbound : cap < s.params.idxBound) : dispatchStatus ev s = .next (afterStore buf pos cap b s) :=
  (dispatchStatus_accepted hp rfl hev).trans (acceptRxVerify_of hbuf hpos hcap hlatch hlt hbound)

/-- Settles O18: RX_CHECK alone expects the event. -/
theorem addrMatchWriteEffect : Obligations.AddrMatchWriteEffect := by
  refine ⟨fun s cap hp hcap => ?_, fun s p hp hother => ?_⟩
  · exact (dispatchStatus_accepted hp rfl (by decide)).trans (acceptRxCheck_of hcap)
  · obtain rfl | rfl | rfl := hother <;> exact dispatchStatus_rejected hp rfl (by decide)

/-- Settles O19: RX_VERIFY alone expects the event, and stores. -/
theorem dataRxAckEffect : Obligations.DataRxAckEffect := by
  refine ⟨fun s buf pos cap b => dispatchStatus_rxVerify (by decide), fun s p hp hother => ?_⟩
  obtain rfl | rfl | rfl := hother <;> exact dispatchStatus_rejected hp rfl (by decide)

/-- Settles O20: as for DATA_RX_ACK, RX_VERIFY alone expects the event, and stores. -/
theorem dataRxNackEffect : Obligations.DataRxNackEffect := by
  refine ⟨fun s buf pos cap b => dispatchStatus_rxVerify (by decide), fun s p hp hother => ?_⟩
  obtain rfl | rfl | rfl := hother <;> exact dispatchStatus_rejected hp rfl (by decide)

/-- Settles O21: TX_CHECK alone expects the event. -/
theorem addrMatchReadEffect : Obligations.AddrMatchReadEffect := by
  refine ⟨fun s hp => ?_, fun s p hp hother => ?_⟩
  · exact dispatchStatus_accepted hp rfl (by decide)
  · obtain rfl | rfl | rfl := hother <;> exact dispatchStatus_rejected hp rfl (by decide)

/-- Settles O22: TX_VERIFY alone expects the event. -/
theorem dataTxAckEffect : Obligations.DataTxAckEffect := by
  refine ⟨fun s pos eff hp hpos heff hlt hbound => ?_, fun s p hp hother => ?_⟩
  · exact (dispatchStatus_accepted hp rfl (by decide)).trans (acceptTxVerify_of hpos heff hlt hbound)
  · obtain rfl | rfl | rfl := hother <;> exact dispatchStatus_rejected hp rfl (by decide)

/-- Settles O23: no phase expects UNEXPECTED. -/
theorem unexpectedEffect : Obligations.UnexpectedEffect := by
  intro s p v hp hphase
  rw [← finish_eq false s]
  obtain rfl | rfl | rfl | rfl := hphase <;> exact dispatchStatus_rejected hp rfl (by decide)

end Sys2Proof.Machine
end

section
/-! How the events of an invocation grow, round by round (spec/41_receive.md R146, spec/42_transmit.md R183). -/

namespace Sys2Proof.Machine

/-- An emitted event is the invocation's last one. -/
theorem invEvents_emit (e : Event) {s : State} (hstart : s.invStart ≤ s.trace.length) :
    invEvents (emit e s) = invEvents s ++ [e] :=
  List.drop_append_of_le_length hstart

theorem rxRounds_concat (cap : Nat) (tmo : Timeout) (i : Nat) (rounds : List (Byte × Byte)) (b v : Byte) :
    rxRounds cap tmo i (rounds ++ [(b, v)]) =
      rxRounds cap tmo i rounds ++ [.receiveByte (ackRx (i + rounds.length) cap) tmo (some b), .readStatus v] := by
  induction rounds generalizing i with
  | nil => rfl
  | cons r rest ih =>
    have hpos : i + 1 + rest.length = i + (rest.length + 1) := by omega
    simp [rxRounds, ih, hpos]

/-- One more accepted byte adds its two events. -/
theorem rxBegun_concat (cap : Nat) (tmo : Timeout) (rounds : List (Byte × Byte)) (b v : Byte) :
    rxBegun cap tmo (rounds ++ [(b, v)]) =
      rxBegun cap tmo rounds ++ [.receiveByte (ackRx rounds.length cap) tmo (some b), .readStatus v] := by
  simp [rxBegun, rxRounds_concat]

theorem txRounds_concat (eff : Nat) (tmo : Timeout) (i : Nat) (bytes : List Byte) (d : Byte) :
    txRounds eff tmo i (bytes ++ [d]) =
      txRounds eff tmo i bytes ++
        [.transmitByte d (ackTx (i + bytes.length) eff) tmo true, .readStatus (statusCode .dataTxAck)] := by
  induction bytes generalizing i with
  | nil => rfl
  | cons b rest ih =>
    have hpos : i + 1 + rest.length = i + (rest.length + 1) := by omega
    simp [txRounds, ih, hpos]

/-- One more byte of the source sent and accepted adds its two events. -/
theorem txBegun_succ {src : List Byte} {k : Nat} {d : Byte} (hd : src[k]? = some d) (c len : Nat) (tmo : Timeout) :
    txBegun src c len tmo (k + 1) =
      txBegun src c len tmo k ++
        [.transmitByte d (ackTx k (effLength len c)) tmo true, .readStatus (statusCode .dataTxAck)] := by
  obtain ⟨hk, -⟩ := List.getElem?_eq_some_iff.mp hd
  have hlen : (src.take k).length = k := List.length_take_of_le hk.le
  have htake : src.take (k + 1) = src.take k ++ [d] := by rw [List.take_add_one, hd]; rfl
  simp [txBegun, htake, txRounds_concat, hlen]

theorem RxAccepted.concat {rounds : List (Byte × Byte)} {v : Byte} (h : RxAccepted rounds) (hv : RxGood v) (b : Byte) :
    RxAccepted (rounds ++ [(b, v)]) :=
  List.forall_mem_append.mpr ⟨h, List.forall_mem_singleton.mpr hv⟩

/-- The store at RXBUF[POS] leaves the bytes below POS (20_memory.md R54, R58). -/
theorem RxStored.concat {mem : Memory} {buf : Ref} {rounds : List (Byte × Byte)} (h : RxStored mem buf rounds) (b v : Byte) :
    RxStored (writeByte mem (rxAddr buf rounds.length) b) buf (rounds ++ [(b, v)]) := by
  intro i r hr
  obtain hlt | rfl | hgt := Nat.lt_trichotomy i rounds.length
  · rw [List.getElem?_append_left hlt] at hr
    rw [readByte_writeByte_other _ _ (by simp [rxAddr]; omega)]
    exact h i r hr
  · obtain rfl : (b, v) = r := by simpa using hr
    exact readByte_writeByte_same ..
  · rw [List.getElem?_eq_none (by simp; omega)] at hr
    cases hr

/-- Where the registers hold a position below CAP, a committed receive has a round to go (10_state.md R43). -/
theorem RxAt.length_lt_cap {s : State} {buf : Ref} {cap : Nat} {tmo : Timeout} {rounds : List (Byte × Byte)}
    (h : RxAt s buf cap tmo rounds) (hpos : ∃ p c, HasPos s p c ∧ p < c) : rounds.length < cap := by
  obtain ⟨-, hcap, -, hlen, -⟩ := h
  obtain ⟨p, c, ⟨hp, hc, -⟩, hlt⟩ := hpos
  obtain rfl := Option.some.inj (hlen.symm.trans hp)
  obtain rfl := Option.some.inj (hcap.symm.trans hc)
  exact hlt

theorem RxAt.cap_lt_idxBound {s : State} {buf : Ref} {cap : Nat} {tmo : Timeout} {rounds : List (Byte × Byte)}
    (h : RxAt s buf cap tmo rounds) (hrx : HoldsRx s) : cap < s.params.idxBound := by
  obtain ⟨-, hcap, -⟩ := h
  obtain ⟨-, -, -, -, c, hc, hbound⟩ := hrx
  obtain rfl := Option.some.inj (hcap.symm.trans hc)
  exact hbound

/-- Where the registers hold a position below EFF, a committed transmit has a byte to go (10_state.md R43). -/
theorem TxAt.lt_effLength {s : State} {src : List Byte} {c len : Nat} {tmo : Timeout} {k : Nat} (h : TxAt s src c len tmo k)
    (hsrc : ∃ p e, HasSource s p e ∧ p < e) : k < effLength len c := by
  obtain ⟨-, -, -, -, heff, hpos, -⟩ := h
  obtain ⟨p, e, ⟨hp, he, -⟩, hlt⟩ := hsrc
  obtain rfl := Option.some.inj (hpos.symm.trans hp)
  obtain rfl := Option.some.inj (heff.symm.trans he)
  exact hlt

theorem TxAt.effLength_lt_idxBound {s : State} {src : List Byte} {c len : Nat} {tmo : Timeout} {k : Nat}
    (h : TxAt s src c len tmo k) (hsrc : ∃ p e, HasSource s p e ∧ p < e) : effLength len c < s.params.idxBound := by
  obtain ⟨-, -, -, -, heff, -, -⟩ := h
  obtain ⟨p, e, ⟨-, he, -, c', -, hec, hbound, -⟩, -⟩ := hsrc
  obtain rfl := Option.some.inj (heff.symm.trans he)
  exact hec.trans_lt hbound

/-- A committed receive that stores an accepted byte has one round more. -/
theorem RxAt.storeLatch {s : State} {buf : Ref} {cap : Nat} {tmo : Timeout} {rounds : List (Byte × Byte)}
    (h : RxAt s buf cap tmo rounds) (hlt : rounds.length < cap) (hbound : cap < s.params.idxBound) (b : Byte) {v : Byte}
    (hv : RxGood v) : RxAt (storeLatch buf rounds.length b s) buf cap tmo (rounds ++ [(b, v)]) := by
  obtain ⟨hbuf, hcap, htmo, -, -, hacc, hstored⟩ := h
  exact ⟨hbuf, hcap, htmo, by simp [nextPos_of_lt hlt hbound], by simpa using hlt, hacc.concat hv b, hstored.concat b v⟩

/-- A committed transmit whose byte is accepted has sent one byte more. -/
theorem TxAt.advancePos {s : State} {src : List Byte} {c len : Nat} {tmo : Timeout} {k : Nat} (h : TxAt s src c len tmo k)
    (hlt : k < effLength len c) (hbound : effLength len c < s.params.idxBound) :
    TxAt (advancePos k s) src c len tmo (k + 1) := by
  obtain ⟨htmo, hsrc, hlen, hcap, heff, -, -⟩ := h
  exact ⟨htmo, hsrc, hlen, hcap, heff, by simp [nextPos_of_lt hlt hbound], hlt⟩

end Sys2Proof.Machine
end

section
/-! Every step keeps the events of the invocation in step with the phase and the registers (spec/41_receive.md R146,
spec/42_transmit.md R183, spec/10_state.md R43). -/

namespace Sys2Proof.Machine

/-! ## The events of the state's phase -/

/-- The events are those that lead to the state's phase: what `TraceInv` adds to `HandlerInv`, but for the mark. -/
def ShapeHeld (s : State) : Prop := ∃ p, AtPhase p s ∧ ShapeAt p s

/-- A state is at one phase, so a shape at its phase is a shape at every phase it is at. -/
theorem traceInv_iff (s : State) : TraceInv s ↔ HandlerInv s ∧ s.invStart ≤ s.trace.length ∧ ShapeHeld s := by
  constructor
  · rintro ⟨hinv, hstart, hshape⟩
    obtain ⟨-, -, p, hp, -⟩ := id hinv
    exact ⟨hinv, hstart, p, hp, hshape p hp⟩
  · rintro ⟨hinv, hstart, p, hp, hshape⟩
    exact ⟨hinv, hstart, fun q hq => atPhase_unique hp hq ▸ hshape⟩

/-! ## `finish` and the loop tests -/

section
variable {s t : State} {buf : Ref} {cap : Nat} {tmo : Timeout} {rounds : List (Byte × Byte)}

/-- `finish` of a receive whose loop has ended goes to FIN_RELEASE with the loop's events (41_receive.md R136). -/
theorem finish_rx_shapeHeld {r : Bool} (hkind : s.kind = some .receive) (harmed : s.armed = true)
    (hat : RxAt s buf cap tmo rounds) (hend : RxLoopEnd cap tmo rounds r (invEvents s)) : ShapeHeld (finish r s) :=
  ⟨.finRelease, by simp [AtPhase, harmed], r, rfl, .inl ⟨hkind, buf, cap, tmo, rounds, hat, hend⟩⟩

/-- The receive loop test after the events of its rounds (R132). -/
theorem rxNext_shapeHeld (h : rxNext s = .next t) (hkind : s.kind = some .receive) (harmed : s.armed = true)
    (hat : RxAt s buf cap tmo rounds) (hev : invEvents s = rxBegun cap tmo rounds) : ShapeHeld t := by
  obtain ⟨-, hcap, -, hpos, hle, -⟩ := id hat
  rw [rxNext_of hpos hcap] at h
  split at h <;> cases h
  · exact ⟨.rxXfer, rfl, buf, cap, tmo, rounds, hat, hev⟩
  · exact finish_rx_shapeHeld hkind harmed hat (.inl ⟨rfl, by omega, hev⟩)

end

section
variable {s t : State} {src : List Byte} {c len : Nat} {tmo : Timeout} {k : Nat}

/-- `finish` of a transmit whose loop has ended goes to FIN_RELEASE with the loop's events. -/
theorem finish_tx_shapeHeld {r : Bool} (hkind : s.kind = some .transmit) (harmed : s.armed = true)
    (hat : TxAt s src c len tmo k) (hend : TxLoopEnd src c len tmo k r (invEvents s)) : ShapeHeld (finish r s) :=
  ⟨.finRelease, by simp [AtPhase, harmed], r, rfl, .inr ⟨hkind, src, c, len, tmo, k, hat, hend⟩⟩

/-- The transmit loop test after the events of its rounds (42_transmit.md R173). -/
theorem txNext_shapeHeld (h : txNext s = .next t) (hkind : s.kind = some .transmit) (harmed : s.armed = true)
    (hat : TxAt s src c len tmo k) (hev : invEvents s = txBegun src c len tmo k) : ShapeHeld t := by
  obtain ⟨-, -, -, -, heff, hpos, hle⟩ := id hat
  rw [txNext_of hpos heff] at h
  split at h <;> cases h
  · exact ⟨.txXfer, rfl, src, c, len, tmo, k, hat, hev⟩
  · exact finish_tx_shapeHeld hkind harmed hat (.inl ⟨rfl, by omega, hev⟩)

end

/-- `finish(false)` before the commitment: the failed check's event is the only one (R131, R171). -/
theorem finish_unarmed_shapeHeld {s : State} {v : Byte} (harmed : s.armed = false) (hev : invEvents s = [.readStatus v])
    (hrx : s.kind = some .receive → decode8 v ≠ .addrMatchWrite) (htx : s.kind = some .transmit → decode8 v ≠ .addrMatchRead) :
    ShapeHeld (finish false s) :=
  ⟨.complete, by simp [AtPhase, harmed], false, rfl, .inl ⟨harmed, rfl, v, hev, hrx, htx⟩⟩

/-! ## The status phases -/

/-- A rejected status ends the invocation with the shape of its phase. -/
theorem finish_rejected_shapeHeld {s : State} {p : Phase} {evs : List StatusEvent} {v : Byte}
    (hset : expectedAt p = some evs) (hrej : decode8 v ∉ evs) (hstart : s.invStart ≤ s.trace.length)
    (hinv : PhaseInv p s) (hshape : ShapeAt p s) : ShapeHeld (finish false (emit (.readStatus v) s)) := by
  have hemit := invEvents_emit (.readStatus v) hstart
  cases p <;> cases hset
  case rxCheck =>
    obtain ⟨⟨hkind, -⟩, harmed, -⟩ := hinv
    exact finish_unarmed_shapeHeld harmed (hemit.trans (congrArg (· ++ _) hshape)) (fun _ => by simpa using hrej)
      (by simp [hkind])
  case txCheck =>
    obtain ⟨⟨hkind, -⟩, harmed, -⟩ := hinv
    exact finish_unarmed_shapeHeld harmed (hemit.trans (congrArg (· ++ _) hshape)) (by simp [hkind])
      (fun _ => by simpa using hrej)
  case rxVerify =>
    obtain ⟨⟨hkind, -⟩, harmed, -, -, hpos⟩ := hinv
    obtain ⟨buf, cap, tmo, rounds, b, hat, -, hev⟩ := hshape
    refine finish_rx_shapeHeld hkind harmed hat
      (.inr (.inr ⟨rfl, hat.length_lt_cap hpos, b, v, by simpa [RxGood] using hrej, ?_⟩))
    simp [hemit, hev]
  case txVerify =>
    obtain ⟨⟨hkind, -⟩, harmed, -, hsrc⟩ := hinv
    obtain ⟨src, c, len, tmo, k, d, hat, hd, hev⟩ := hshape
    refine finish_tx_shapeHeld hkind harmed hat
      (.inr (.inr ⟨rfl, hat.lt_effLength hsrc, d, v, hd, by simpa using hrej, ?_⟩))
    simp [hemit, hev]

/-- The four phases that read the status: the event, then what the dispatch does. -/
theorem Dispatched.shapeHeld {s t : State} {p : Phase} {v : Byte} (h : Dispatched (emit (.readStatus v) s) p (decode8 v) t)
    (hstart : s.invStart ≤ s.trace.length) (hinv : PhaseInv p s) (hshape : ShapeAt p s) : ShapeHeld t := by
  have hemit := invEvents_emit (.readStatus v) hstart
  generalize hv : decode8 v = ev at h
  cases h with
  | rejected hset hrej => exact finish_rejected_shapeHeld hset (hv ▸ hrej) hstart hinv hshape
  | committed hnext =>
    obtain ⟨⟨hkind, -, ⟨tmo, htmo⟩, ⟨buf, hbuf⟩, cap, hcap, -⟩, -⟩ := hinv
    obtain rfl := (decode8_eq_iff v .addrMatchWrite (by decide)).mp hv
    refine rxNext_shapeHeld (rounds := []) hnext hkind rfl ⟨hbuf, hcap, htmo, rfl, Nat.zero_le cap, ?_, ?_⟩
      (hemit.trans (congrArg (· ++ _) hshape))
    · simp [RxAccepted]
    · simp [RxStored]
  | stored haccept hbuf hpos _ hlatch _ hnext =>
    obtain ⟨hrx, harmed, -, -, hbelow⟩ := hinv
    obtain ⟨hkind, -⟩ := id hrx
    obtain ⟨_, cap, tmo, rounds, _, hat, hlatch', hev⟩ := hshape
    obtain ⟨hbuf', -, -, hpos', -⟩ := id hat
    obtain rfl := Option.some.inj (hbuf'.symm.trans hbuf)
    obtain rfl := Option.some.inj (hpos'.symm.trans hpos)
    obtain rfl := Option.some.inj (hlatch'.symm.trans hlatch)
    have hgood : RxGood v := by simpa [RxGood, hv] using haccept
    have hread : RxAt (emit (.readStatus v) s) _ cap tmo rounds := hat
    refine rxNext_shapeHeld hnext hkind harmed
      (hread.storeLatch (hat.length_lt_cap hbelow) (hat.cap_lt_idxBound hrx) _ hgood) ?_
    rw [rxBegun_concat]
    exact hemit.trans (by simp [hev])
  | matched =>
    obtain rfl := (decode8_eq_iff v .addrMatchRead (by decide)).mp hv
    exact ⟨.txProvide, rfl, hemit.trans (congrArg (· ++ _) hshape)⟩
  | sent hpos hnext =>
    obtain ⟨⟨hkind, -⟩, harmed, -, hsrc⟩ := hinv
    obtain ⟨src, c, len, tmo, k, d, hat, hd, hev⟩ := hshape
    obtain ⟨-, -, -, -, -, hpos', -⟩ := id hat
    obtain rfl := Option.some.inj (hpos'.symm.trans hpos)
    obtain rfl := (decode8_eq_iff v .dataTxAck (by decide)).mp hv
    have hread : TxAt (emit (.readStatus (statusCode .dataTxAck)) s) src c len tmo k := hat
    refine txNext_shapeHeld hnext hkind harmed
      (hread.advancePos (hat.lt_effLength hsrc) (hat.effLength_lt_idxBound hsrc)) ?_
    rw [txBegun_succ hd]
    exact hemit.trans (by simp [hev])

/-! ## How an invocation stands at COMPLETE -/

/-- How a receive stands at COMPLETE: its initial check failed, or its loop has ended and been finalized (41_receive.md R140). -/
inductive ReceiveEnded (s : State) (buf : Ref) (cap : Nat) (tmo : Timeout) : Bool → Prop
  | notForHandler {v} (hv : decode8 v ≠ .addrMatchWrite) (hev : invEvents s = [.readStatus v]) : ReceiveEnded s buf cap tmo false
  | finalized {rounds r loop} (hat : RxAt s buf cap tmo rounds) (hend : RxLoopEnd cap tmo rounds r loop)
      (hev : invEvents s = loop ++ [.releaseBus, .onDone buf rounds.length]) : ReceiveEnded s buf cap tmo r

/-- How a transmit stands at COMPLETE (42_transmit.md R178, R181). -/
inductive TransmitEnded (s : State) (tmo : Timeout) : Bool → Prop
  | notForHandler {v} (hv : decode8 v ≠ .addrMatchRead) (hev : invEvents s = [.readStatus v]) : TransmitEnded s tmo false
  | finalized {src c len k r loop} (hat : TxAt s src c len tmo k) (hend : TxLoopEnd src c len tmo k r loop)
      (hev : invEvents s = loop ++ [.releaseBus]) : TransmitEnded s tmo r

theorem ShapeAt.receiveEnded {s : State} {buf : Ref} {cap : Nat} {tmo : Timeout} (h : ShapeAt .complete s)
    (hkind : s.kind = some .receive) (hcap : s.cap = some cap) (htmo : s.tmo = some tmo) (hbuf : s.rxbuf = some buf) :
    ∃ r, s.result = some r ∧ ReceiveEnded s buf cap tmo r := by
  obtain ⟨r, hresult, ⟨-, rfl, v, hev, hv, -⟩ | ⟨-, -, _, _, _, rounds, loop, hat, hend, hev⟩ | ⟨-, hkind', -⟩⟩ := h
  · exact ⟨false, hresult, .notForHandler (hv hkind) hev⟩
  · obtain ⟨hbuf', hcap', htmo', -⟩ := id hat
    obtain rfl := Option.some.inj (hbuf'.symm.trans hbuf)
    obtain rfl := Option.some.inj (hcap'.symm.trans hcap)
    obtain rfl := Option.some.inj (htmo'.symm.trans htmo)
    exact ⟨r, hresult, .finalized hat hend hev⟩
  · simp [hkind] at hkind'

theorem ShapeAt.transmitEnded {s : State} {tmo : Timeout} (h : ShapeAt .complete s) (hkind : s.kind = some .transmit)
    (htmo : s.tmo = some tmo) : ∃ r, s.result = some r ∧ TransmitEnded s tmo r := by
  obtain ⟨r, hresult, ⟨-, rfl, v, hev, -, hv⟩ | ⟨-, hkind', -⟩ | ⟨-, -, _, _, _, _, _, loop, hat, hend, hev⟩⟩ := h
  · exact ⟨false, hresult, .notForHandler (hv hkind) hev⟩
  · simp [hkind] at hkind'
  · obtain ⟨htmo', -⟩ := id hat
    obtain rfl := Option.some.inj (htmo'.symm.trans htmo)
    exact ⟨r, hresult, .finalized hat hend hev⟩

/-- With COMPLETE, the events of a receive are one of R146's four shapes. -/
theorem ReceiveEnded.rxShape {s : State} {buf : Ref} {cap : Nat} {tmo : Timeout} {r : Bool} (h : ReceiveEnded s buf cap tmo r) :
    RxShape cap tmo buf (invEvents s ++ [.complete r]) := by
  cases h with
  | @notForHandler v hv hev => exact .inl ⟨v, hv, by rw [hev]; rfl⟩
  | @finalized rounds _ loop hat hend hev =>
    obtain ⟨-, -, -, -, -, hacc, -⟩ := hat
    exact .inr ⟨rounds, r, loop, hacc, hend, by simp [hev]⟩

/-- With COMPLETE, the events of a transmit are one of R183's four shapes. -/
theorem TransmitEnded.txShape {s : State} {tmo : Timeout} {r : Bool} (h : TransmitEnded s tmo r) :
    TxShape tmo (invEvents s ++ [.complete r]) := by
  cases h with
  | @notForHandler v hv hev => exact .inl ⟨v, hv, by rw [hev]; rfl⟩
  | @finalized src c len k _ loop hat hend hev =>
    obtain ⟨-, -, hlen, -⟩ := hat
    exact .inr ⟨src, c, len, k, r, loop, hlen, hend, by simp [hev]⟩

/-- At COMPLETE the handler holds what a receive holds, or what a transmit holds. -/
theorem PhaseInv.holds_of_complete {s : State} (h : PhaseInv .complete s) : HoldsRx s ∨ HoldsTx s := by
  obtain ⟨_, -, ⟨-, hrx, -⟩ | ⟨-, htx, -⟩ | ⟨-, -, hrx, -⟩ | ⟨-, -, htx, -⟩⟩ := h
  · exact .inl hrx
  · exact .inr htx
  · exact .inl hrx
  · exact .inr htx

/-- COMPLETE leaves IDLE with the events of a whole invocation (R139). -/
theorem clearRegisters_shapeHeld {s : State} {r : Bool} (hstart : s.invStart ≤ s.trace.length) (hinv : PhaseInv .complete s)
    (hshape : ShapeAt .complete s) (hresult : s.result = some r) : ShapeHeld (clearRegisters (emit (.complete r) s)) := by
  have hemit : invEvents (clearRegisters (emit (.complete r) s)) = _ := invEvents_emit (.complete r) hstart
  refine ⟨.idle, rfl, .inr ?_⟩
  rw [hemit]
  obtain ⟨hkind, -, ⟨tmo, htmo⟩, ⟨buf, hbuf⟩, cap, hcap, -⟩ | ⟨hkind, -, -, tmo, htmo⟩ := hinv.holds_of_complete
  · obtain ⟨r', hresult', hended⟩ := hshape.receiveEnded hkind hcap htmo hbuf
    obtain rfl := Option.some.inj (hresult.symm.trans hresult')
    exact .inl ⟨cap, tmo, buf, hended.rxShape⟩
  · obtain ⟨r', hresult', hended⟩ := hshape.transmitEnded hkind htmo
    obtain rfl := Option.some.inj (hresult.symm.trans hresult')
    exact .inr ⟨tmo, hended.txShape⟩

/-! ## The byte phases and the finalization -/

/-- RX_XFER's event, then RX_VERIFY with the byte latched, or the end of the loop (R133). -/
theorem afterReceive_shapeHeld {s : State} {pos cap : Nat} {tmo : Timeout} (hstart : s.invStart ≤ s.trace.length)
    (hinv : PhaseInv .rxXfer s) (hshape : ShapeAt .rxXfer s) (hpos : s.pos = some pos) (hcap : s.cap = some cap)
    (htmo : s.tmo = some tmo) (answer : Option Byte) :
    ShapeHeld (afterReceive answer (emit (.receiveByte (ackRx pos cap) tmo answer) s)) := by
  have hemit := invEvents_emit (.receiveByte (ackRx pos cap) tmo answer) hstart
  obtain ⟨⟨hkind, -⟩, harmed, -, -, hbelow⟩ := hinv
  obtain ⟨buf, _, _, rounds, hat, hev⟩ := hshape
  have hlt := hat.length_lt_cap hbelow
  obtain ⟨-, hcap', htmo', hpos', -⟩ := id hat
  obtain rfl := Option.some.inj (hcap'.symm.trans hcap)
  obtain rfl := Option.some.inj (htmo'.symm.trans htmo)
  obtain rfl := Option.some.inj (hpos'.symm.trans hpos)
  rw [hev] at hemit
  cases answer with
  | none => exact finish_rx_shapeHeld hkind harmed hat (.inr (.inl ⟨rfl, hlt, hemit⟩))
  | some b => exact ⟨.rxVerify, rfl, buf, _, _, rounds, b, hat, rfl, hemit⟩

/-- TX_XFER's event with the source's byte, then TX_VERIFY, or the end of the loop (42_transmit.md R174). -/
theorem afterTransmit_shapeHeld {s : State} {pos eff : Nat} {tmo : Timeout} {d : Byte} (hstart : s.invStart ≤ s.trace.length)
    (hinv : PhaseInv .txXfer s) (hshape : ShapeAt .txXfer s) (hpos : s.pos = some pos) (heff : s.eff = some eff)
    (htmo : s.tmo = some tmo) (hbyte : readByte s.txsrc pos = some d) (ok : Bool) :
    ShapeHeld (afterTransmit ok (emit (.transmitByte d (ackTx pos eff) tmo ok) s)) := by
  have hemit := invEvents_emit (.transmitByte d (ackTx pos eff) tmo ok) hstart
  obtain ⟨⟨hkind, -⟩, harmed, -, hsource⟩ := hinv
  obtain ⟨src, c, len, _, k, hat, hev⟩ := hshape
  have hlt := hat.lt_effLength hsource
  obtain ⟨htmo', hsrc, -, -, heff', hpos', -⟩ := id hat
  obtain rfl := Option.some.inj (heff'.symm.trans heff)
  obtain rfl := Option.some.inj (htmo'.symm.trans htmo)
  obtain rfl := Option.some.inj (hpos'.symm.trans hpos)
  have hd : src[k]? = some d := by rw [← hbyte, hsrc, ← readByte_regionFrom src 0 k, Nat.zero_add]
  rw [hev] at hemit
  cases ok with
  | false => exact finish_tx_shapeHeld hkind harmed hat (.inr (.inl ⟨rfl, hlt, d, hd, hemit⟩))
  | true => exact ⟨.txVerify, rfl, src, c, len, _, k, d, hat, hd, hemit⟩

/-- FIN_RELEASE's event follows the loop's: a receive goes on to its callback, a transmit to COMPLETE (41_receive.md R137). -/
theorem afterRelease_shapeHeld {s : State} {kind : Kind} (hstart : s.invStart ≤ s.trace.length) (hinv : PhaseInv .finRelease s)
    (hshape : ShapeAt .finRelease s) (hkind : s.kind = some kind) :
    ShapeHeld (goto (afterRelease kind) (emit .releaseBus s)) := by
  have hemit := invEvents_emit .releaseBus hstart
  obtain ⟨harmed, -⟩ := hinv
  obtain ⟨r, hresult, ⟨hrx, buf, cap, tmo, rounds, hat, hend⟩ | ⟨htx, src, c, len, tmo, k, hat, hend⟩⟩ := hshape
  · obtain rfl := Option.some.inj (hrx.symm.trans hkind)
    exact ⟨.finDone, rfl, r, hresult, buf, cap, tmo, rounds, _, hat, hend, hemit⟩
  · obtain rfl := Option.some.inj (htx.symm.trans hkind)
    exact ⟨.complete, rfl, r, hresult, .inr (.inr ⟨harmed, htx, src, c, len, tmo, k, _, hat, hend, hemit⟩)⟩

/-- FIN_DONE's event reports the number of rounds (R138). -/
theorem afterDone_shapeHeld {s : State} {buf : Ref} {pos : Nat} (hstart : s.invStart ≤ s.trace.length)
    (hinv : PhaseInv .finDone s) (hshape : ShapeAt .finDone s) (hbuf : s.rxbuf = some buf) (hpos : s.pos = some pos) :
    ShapeHeld (goto .complete (emit (.onDone buf pos) s)) := by
  have hemit := invEvents_emit (.onDone buf pos) hstart
  obtain ⟨harmed, -, -, ⟨hkind, -⟩, -⟩ := hinv
  obtain ⟨r, hresult, _, cap, tmo, rounds, loop, hat, hend, hev⟩ := hshape
  obtain ⟨hbuf', -, -, hpos', -⟩ := id hat
  obtain rfl := Option.some.inj (hbuf'.symm.trans hbuf)
  obtain rfl := Option.some.inj (hpos'.symm.trans hpos)
  rw [hev, List.append_assoc] at hemit
  exact ⟨.complete, rfl, r, hresult, .inr (.inl ⟨harmed, hkind, _, cap, tmo, rounds, loop, hat, hend, hemit⟩)⟩

/-! ## Exchanges and steps -/

theorem Exchanged.shapeHeld {s t : State} {i : Instr} {p : Phase} {e : Event} (h : Exchanged s i p e t)
    (hwf : i.wellFormed s.params = true) (hstart : s.invStart ≤ s.trace.length) (hinv : PhaseInv p s) (hshape : ShapeAt p s) :
    ShapeHeld t := by
  cases h with
  | readStatus hd => exact hd.shapeHeld hstart hinv hshape
  | @receiveByte answer _ _ _ hpos hcap htmo => exact afterReceive_shapeHeld hstart hinv hshape hpos hcap htmo answer
  | @transmitByte ok _ _ _ _ hpos heff htmo hbyte => exact afterTransmit_shapeHeld hstart hinv hshape hpos heff htmo hbyte ok
  | releaseBus hkind => exact afterRelease_shapeHeld hstart hinv hshape hkind
  | onDone hbuf hpos => exact afterDone_shapeHeld hstart hinv hshape hbuf hpos
  | @provide src c len _ hnext =>
    obtain ⟨⟨hkind, -, -, tmo, htmo⟩, -⟩ := hinv
    simp only [Instr.wellFormed, Bool.and_eq_true, decide_eq_true_eq] at hwf
    obtain ⟨⟨hlen, -⟩, -⟩ := hwf
    have hemit := invEvents_emit (.provide src c len) hstart
    exact txNext_shapeHeld (k := 0) hnext hkind rfl ⟨htmo, rfl, hlen, rfl, rfl, rfl, Nat.zero_le _⟩
      (hemit.trans (congrArg (· ++ _) hshape))
  | complete hresult => exact clearRegisters_shapeHeld hstart hinv hshape hresult

/-- The shape of a phase does not depend on the record of refusals or on what is still to arrive. -/
theorem shapeAt_outside (p : Phase) (s : State) (busy : Bool) (inbox : List Input) :
    ShapeAt p { s with busyRefused := busy, inbox := inbox } ↔ ShapeAt p s := by
  cases p <;> exact Iff.rfl

/-- No event was emitted since the mark, when the mark is the trace's end. -/
theorem invEvents_of_invStart_eq {s : State} (h : s.invStart = s.trace.length) : invEvents s = [] := by
  rw [invEvents, h, List.drop_length]

theorem Stepped.shapeHeld {s t : State} {p : Phase} (h : Stepped s p t) (hp : AtPhase p s)
    (hstart : s.invStart ≤ s.trace.length) (hinv : PhaseInv p s) (hshape : ShapeAt p s) : ShapeHeld t := by
  cases h with
  | receiveAccepted => exact ⟨.rxCheck, rfl, invEvents_of_invStart_eq rfl⟩
  | transmitAccepted => exact ⟨.txCheck, rfl, invEvents_of_invStart_eq rfl⟩
  | @busy _ _ rest => exact ⟨p, hp, (shapeAt_outside p s true rest).mpr hshape⟩
  | @exchanged _ _ _ rest _ _ hwf hrun =>
    exact hrun.shapeHeld hwf hstart (hinv.withInbox _) ((shapeAt_outside p s s.busyRefused rest).mpr hshape)
  | reset => exact ⟨.idle, rfl, .inl (invEvents_of_invStart_eq rfl)⟩
  | hostWrite => exact ⟨.idle, hp, hshape⟩

/-- An exchange leaves the mark. -/
theorem Exchanged.invStart_eq {s t : State} {i : Instr} {p : Phase} {e : Event} (h : Exchanged s i p e t) :
    t.invStart = s.invStart := by
  cases h with
  | readStatus hd => obtain ⟨_, _, _, _, _, _, rfl⟩ := hd.statusWrites.any; rfl
  | @receiveByte answer => cases answer <;> rfl
  | @transmitByte ok => cases ok <;> rfl
  | releaseBus | onDone | complete => rfl
  | provide hnext => obtain ⟨_, _, rfl⟩ := txNext_frame hnext; rfl

/-- The mark is never beyond the trace: a step sets it to the trace's end or leaves it, and only adds events. -/
theorem Stepped.invStart_le {s t : State} {p : Phase} (h : Stepped s p t) (hstart : s.invStart ≤ s.trace.length) :
    t.invStart ≤ t.trace.length := by
  cases h with
  | receiveAccepted | transmitAccepted | reset => exact le_rfl
  | busy | hostWrite => exact hstart
  | exchanged _ _ hrun =>
    rw [hrun.trace_eq, hrun.invStart_eq, List.length_append]
    exact Nat.le_add_right_of_le hstart

/-- Settles O48: each way a step can end adds the event that leads to its next phase, or starts a new invocation's events. -/
theorem stepKeepsTraceInvariant : Obligations.StepKeepsTraceInvariant := by
  intro s t hinv hstep
  obtain ⟨hhandler, hstart, hshape⟩ := hinv
  obtain ⟨p, hp, hstepped⟩ := step_stepped hstep
  exact (traceInv_iff t).mpr ⟨stepKeepsInvariant s t hhandler hstep, hstepped.invStart_le hstart,
    hstepped.shapeHeld hp hstart (hhandler.phaseInv hp) (hshape p hp)⟩

end Sys2Proof.Machine
end

section
/-! What the events of a finished invocation show (spec/41_receive.md R140, R141, R146, spec/42_transmit.md R178, R181). -/

namespace Sys2Proof.Machine

/-! ## COMPLETE -/

/-- COMPLETE hands over RESULT and clears the registers (43_interface.md R217). -/
theorem execComplete_at {s : State} {r : Bool} (hp : AtPhase .complete s) (hresult : s.result = some r) :
    exec .complete s = .next (clearRegisters (emit (.complete r) s)) := by
  show execComplete s = _
  rw [execComplete, atPhase_at hp, hresult]
  rfl

/-- The invocation's events outlive the registers: COMPLETE adds its own and keeps the mark. -/
theorem invEvents_clearRegisters_emit {s : State} (e : Event) (hstart : s.invStart ≤ s.trace.length) :
    invEvents (clearRegisters (emit e s)) = invEvents s ++ [e] :=
  invEvents_emit e hstart

theorem reportedResult_append_complete (events : List Event) (r : Bool) :
    reportedResult (events ++ [.complete r]) = some r := by simp [reportedResult]

/-- Settles O49: the events at COMPLETE lack COMPLETE's own to be one of the shapes. -/
theorem receiveHasOneOfFourShapes : Obligations.ReceiveHasOneOfFourShapes := by
  intro s cap tmo buf ⟨_, hstart, hshape⟩ hp hkind hcap htmo hbuf
  obtain ⟨r, hresult, hended⟩ := (hshape _ hp).receiveEnded hkind hcap htmo hbuf
  refine ⟨_, execComplete_at hp hresult, ?_, ?_⟩ <;> rw [invEvents_clearRegisters_emit _ hstart]
  · exact hended.rxShape
  · rw [reportedResult_append_complete, hresult]

/-- A receive at COMPLETE holds its operands and has ended. -/
theorem TraceInv.receiveEnded {s : State} (h : TraceInv s) (hp : AtPhase .complete s) (hkind : s.kind = some .receive) :
    ∃ buf cap tmo r, s.rxbuf = some buf ∧ s.cap = some cap ∧ s.result = some r ∧ ReceiveEnded s buf cap tmo r := by
  obtain ⟨hinv, -, hshape⟩ := h
  obtain ⟨-, -, ⟨tmo, htmo⟩, ⟨buf, hbuf⟩, cap, hcap, -⟩ | ⟨hkind', -⟩ := (hinv.phaseInv hp).holds_of_complete
  · obtain ⟨r, hresult, hended⟩ := (hshape _ hp).receiveEnded hkind hcap htmo hbuf
    exact ⟨buf, cap, tmo, r, hbuf, hcap, hresult, hended⟩
  · simp [hkind] at hkind'

/-- A transmit at COMPLETE holds its timeout and has ended. -/
theorem TraceInv.transmitEnded {s : State} (h : TraceInv s) (hp : AtPhase .complete s) (hkind : s.kind = some .transmit) :
    ∃ tmo r, s.result = some r ∧ TransmitEnded s tmo r := by
  obtain ⟨hinv, -, hshape⟩ := h
  obtain ⟨hkind', -⟩ | ⟨-, -, -, tmo, htmo⟩ := (hinv.phaseInv hp).holds_of_complete
  · simp [hkind] at hkind'
  · obtain ⟨r, hresult, hended⟩ := (hshape _ hp).transmitEnded hkind htmo
    exact ⟨tmo, r, hresult, hended⟩

/-! ## The events of a loop -/

/-- Nothing but status reads and byte transfers. -/
def Bytewise (events : List Event) : Prop :=
  ∀ e ∈ events, eventCode e = 0x1#4 ∨ eventCode e = 0x2#4 ∨ eventCode e = 0x3#4

theorem Bytewise.append {events events' : List Event} (h : Bytewise events) (h' : Bytewise events') :
    Bytewise (events ++ events') :=
  List.forall_mem_append.mpr ⟨h, h'⟩

theorem rxRounds_bytewise (cap : Nat) (tmo : Timeout) (i : Nat) (rounds : List (Byte × Byte)) :
    Bytewise (rxRounds cap tmo i rounds) := by
  induction rounds generalizing i with
  | nil => simp [Bytewise, rxRounds]
  | cons r rest ih => exact Bytewise.append (events := [_, _]) (by simp [Bytewise, eventCode]) (ih (i + 1))

theorem txRounds_bytewise (eff : Nat) (tmo : Timeout) (i : Nat) (bytes : List Byte) :
    Bytewise (txRounds eff tmo i bytes) := by
  induction bytes generalizing i with
  | nil => simp [Bytewise, txRounds]
  | cons d rest ih => exact Bytewise.append (events := [_, _]) (by simp [Bytewise, eventCode]) (ih (i + 1))

/-- A receive's events up to the end of its loop are status reads and byte transfers. -/
theorem RxLoopEnd.bytewise {cap : Nat} {tmo : Timeout} {rounds : List (Byte × Byte)} {r : Bool} {loop : List Event}
    (h : RxLoopEnd cap tmo rounds r loop) : Bytewise loop := by
  have hbegun : Bytewise (rxBegun cap tmo rounds) :=
    Bytewise.append (events := [_]) (by simp [Bytewise, eventCode]) (rxRounds_bytewise cap tmo 0 rounds)
  obtain ⟨-, -, rfl⟩ | ⟨-, -, rfl⟩ | ⟨-, -, _, _, -, rfl⟩ := h
  · exact hbegun
  · exact hbegun.append (by simp [Bytewise, eventCode])
  · exact hbegun.append (by simp [Bytewise, eventCode])

/-- A transmit's events up to the end of its loop are its passed check, PROVIDE, and then status reads and byte transfers. -/
theorem TxLoopEnd.eq_cons {src : List Byte} {c len : Nat} {tmo : Timeout} {k : Nat} {r : Bool} {loop : List Event}
    (h : TxLoopEnd src c len tmo k r loop) :
    ∃ sent, Bytewise sent ∧ loop = .readStatus 0xA8#8 :: .provide src c len :: sent := by
  have hsent := txRounds_bytewise (effLength len c) tmo 0 (src.take k)
  obtain ⟨-, -, rfl⟩ | ⟨-, -, _, -, rfl⟩ | ⟨-, -, _, _, -, -, rfl⟩ := h
  · exact ⟨_, hsent, rfl⟩
  · exact ⟨_, hsent.append (by simp [Bytewise, eventCode]), rfl⟩
  · exact ⟨_, hsent.append (by simp [Bytewise, eventCode]), rfl⟩

section
variable {loop : List Event} (h : Bytewise loop)
include h

theorem Bytewise.releaseBus_notMem : .releaseBus ∉ loop := fun hmem => by simpa [eventCode] using h _ hmem

theorem Bytewise.onDone_notMem (buf : Ref) (count : Nat) : .onDone buf count ∉ loop := fun hmem => by
  simpa [eventCode] using h _ hmem

theorem Bytewise.releaseCount_append (rest : List Event) : releaseCount (loop ++ rest) = releaseCount rest := by
  have hnone : loop.countP (fun e => e == .releaseBus) = 0 :=
    List.countP_eq_zero.mpr fun e he heq => h.releaseBus_notMem (beq_iff_eq.mp heq ▸ he)
  rw [releaseCount, List.countP_append, hnone, Nat.zero_add]
  rfl

theorem Bytewise.doneCount_append (rest : List Event) : doneCount (loop ++ rest) = doneCount rest := by
  have hnone : loop.countP (fun e => eventCode e == 0x5#4) = 0 :=
    List.countP_eq_zero.mpr fun e he => by obtain hc | hc | hc := h e he <;> simp [hc]
  rw [doneCount, List.countP_append, hnone, Nat.zero_add]
  rfl

theorem Bytewise.provideCount_append (rest : List Event) : provideCount (loop ++ rest) = provideCount rest := by
  have hnone : loop.countP (fun e => eventCode e == 0x6#4) = 0 :=
    List.countP_eq_zero.mpr fun e he => by obtain hc | hc | hc := h e he <;> simp [hc]
  rw [provideCount, List.countP_append, hnone, Nat.zero_add]
  rfl

end

/-! ## One release of the bus -/

/-- What follows the only RELEASE_BUS does not depend on where the events are cut. -/
theorem eq_of_append_releaseBus {loop tail before after : List Event} (hloop : .releaseBus ∉ loop) (htail : .releaseBus ∉ tail)
    (h : loop ++ .releaseBus :: tail = before ++ .releaseBus :: after) : after = tail := by
  obtain ⟨-, -, heq⟩ := (List.append_cons_inj_of_notMem hloop htail).mp h
  exact heq.symm

/-- An invocation that is not for the handler emits READ_STATUS and COMPLETE only. -/
theorem ne_append_releaseBus {v : Byte} {r : Bool} {before after : List Event} :
    [.readStatus v, .complete r] ≠ before ++ .releaseBus :: after := by
  intro h
  have hmem : Event.releaseBus ∈ [.readStatus v, .complete r] := by simp [h]
  simp at hmem

/-- R140 of each of R146's shapes: one release and one callback right after it if the check passed, else none. -/
theorem RxShape.release {cap : Nat} {tmo : Timeout} {buf : Ref} {events : List Event} (h : RxShape cap tmo buf events) :
    releaseCount events = (if events.head? = some (.readStatus 0x60#8) then 1 else 0) ∧
      doneCount events = releaseCount events ∧ provideCount events = 0 ∧
      ∀ before after, events = before ++ .releaseBus :: after → ∃ buf count r, after = [.onDone buf count, .complete r] := by
  obtain ⟨v, hv, rfl⟩ | ⟨rounds, r, loop, -, hend, rfl⟩ := h
  · have hne : v ≠ 0x60#8 := (decode8_eq_iff v .addrMatchWrite (by decide)).not.mp hv
    exact ⟨by simp [releaseCount, hne], rfl, rfl, fun _ _ heq => absurd heq ne_append_releaseBus⟩
  · have hloop := hend.bytewise
    rw [hend.head_append, hloop.releaseCount_append, hloop.doneCount_append, hloop.provideCount_append]
    exact ⟨rfl, rfl, rfl, fun _ _ heq => ⟨buf, _, r, eq_of_append_releaseBus hloop.releaseBus_notMem (by simp) heq⟩⟩

/-- R178 of each of R183's shapes: one PROVIDE and one release if the check passed, else none, and never a callback. -/
theorem TxShape.release {tmo : Timeout} {events : List Event} (h : TxShape tmo events) :
    releaseCount events = (if events.head? = some (.readStatus 0xA8#8) then 1 else 0) ∧
      provideCount events = releaseCount events ∧ doneCount events = 0 ∧
      ∀ before after, events = before ++ .releaseBus :: after → ∃ r, after = [.complete r] := by
  obtain ⟨v, hv, rfl⟩ | ⟨src, c, len, k, r, loop, -, hend, rfl⟩ := h
  · have hne : v ≠ 0xA8#8 := (decode8_eq_iff v .addrMatchRead (by decide)).not.mp hv
    exact ⟨by simp [releaseCount, hne], rfl, rfl, fun _ _ heq => absurd heq ne_append_releaseBus⟩
  · obtain ⟨sent, hsent, rfl⟩ := hend.eq_cons
    have hcut : Event.releaseBus ∉ .readStatus 0xA8#8 :: .provide src c len :: sent := by simp [hsent.releaseBus_notMem]
    have hrelease : releaseCount (.readStatus 0xA8#8 :: .provide src c len :: (sent ++ [.releaseBus, .complete r])) = 1 :=
      hsent.releaseCount_append _
    have hprovide : provideCount (.readStatus 0xA8#8 :: .provide src c len :: (sent ++ [.releaseBus, .complete r])) = 1 :=
      (List.countP_cons_of_neg (by simp [eventCode])).trans
        ((List.countP_cons_of_pos rfl).trans (congrArg (· + 1) (hsent.provideCount_append _)))
    exact ⟨hrelease, hprovide.trans hrelease.symm, hsent.doneCount_append _,
      fun _ _ heq => ⟨r, eq_of_append_releaseBus hcut (by simp) heq⟩⟩

/-- Settles O52: COMPLETE makes the events a whole shape, and each shape has its one release or none. -/
theorem releaseExactlyOnce : Obligations.ReleaseExactlyOnce := by
  refine ⟨fun s hinv hp hkind => ?_, fun s hinv hp hkind => ?_⟩ <;> obtain ⟨-, hstart, -⟩ := id hinv
  · obtain ⟨_, _, _, r, -, -, hresult, hended⟩ := hinv.receiveEnded hp hkind
    refine ⟨_, execComplete_at hp hresult, ?_⟩
    rw [invEvents_clearRegisters_emit _ hstart]
    exact hended.rxShape.release
  · obtain ⟨_, r, hresult, hended⟩ := hinv.transmitEnded hp hkind
    refine ⟨_, execComplete_at hp hresult, ?_⟩
    rw [invEvents_clearRegisters_emit _ hstart]
    exact hended.txShape.release

/-! ## Result and count -/

/-- The loop's result says whether the whole buffer was filled (R141). -/
theorem RxLoopEnd.result_iff {cap : Nat} {tmo : Timeout} {rounds : List (Byte × Byte)} {r : Bool} {loop : List Event}
    (h : RxLoopEnd cap tmo rounds r loop) : r = true ↔ rounds.length = cap := by
  obtain ⟨rfl, hlen, -⟩ | ⟨rfl, hlt, -⟩ | ⟨rfl, hlt, -⟩ := h
  · simp [hlen]
  · simp [hlt.ne]
  · simp [hlt.ne]

/-- Settles O53: a failed check emits no byte and no callback; the bytes of a finalized receive are those of its loop's rounds. -/
theorem resultAndCount : Obligations.ResultAndCount := by
  intro s cap hinv hp hkind hcap
  obtain ⟨buf, cap', tmo, r, hbuf, hcap', hresult, hended⟩ := hinv.receiveEnded hp hkind
  obtain rfl := Option.some.inj (hcap'.symm.trans hcap)
  obtain ⟨-, hstart, -⟩ := hinv
  refine ⟨_, r, buf, execComplete_at hp hresult, hresult, hbuf, ?_⟩
  rw [invEvents_clearRegisters_emit _ hstart]
  refine ⟨reportedResult_append_complete _ r, ?_⟩
  cases hended with
  | @notForHandler v hv hev =>
    have hne : v ≠ 0x60#8 := (decode8_eq_iff v .addrMatchWrite (by decide)).not.mp hv
    simp [hev, hne, acceptedBytes]
  | @finalized rounds _ loop hat hend hev =>
    obtain ⟨-, -, -, -, hle, hacc, hstored⟩ := hat
    have hevents : invEvents s ++ [.complete r] = loop ++ [.releaseBus, .onDone buf rounds.length, .complete r] := by simp [hev]
    have hbytes : acceptedBytes (loop ++ [.releaseBus, .onDone buf rounds.length, .complete r]) = rounds.map Prod.fst := by
      rw [hend.acceptedBytes_append hacc]
      simp [acceptedBytes]
    rw [hevents, hend.head_append, if_pos rfl, hbytes, List.length_map]
    refine ⟨hend.result_iff, hle, by simp, fun b k hmem => ?_, fun i v hv => hstored.readByte_of_getElem? hv⟩
    simpa [hend.bytewise.onDone_notMem] using hmem

end Sys2Proof.Machine
end

section
/-! The receive commands, phase bodies and control operations (spec/41_receive.md R130 to R139). -/

namespace Sys2Proof.Machine

/-! ## The command and the control operations -/

/-- Settles O12: a command is accepted at IDLE and refused BUSY_COMMAND elsewhere. -/
theorem handleReceiveEffect : Obligations.HandleReceiveEffect := by
  intro s p buf capacity timeout hp
  split_ifs with hidle
  · subst hidle
    exact takeCommand_idle hp _
  · exact takeCommand_busy hp hidle _

/-- Settles O15: the loop test compares the two registers. -/
theorem rxNextLoopTest : Obligations.RxNextLoopTest := fun _ _ _ => rxNext_of

/-- Settles O17: ARMED chooses the phase. -/
theorem finishGoesWhereArmedSays : Obligations.FinishGoesWhereArmedSays := finish_eq

theorem finish_of_armed {s : State} (h : s.armed = true) (r : Bool) :
    finish r s = { s with result := some r, phase := 0x8#4 } := by simp [finish_eq, h]

theorem finish_of_unarmed {s : State} (h : s.armed = false) (r : Bool) :
    finish r s = { s with result := some r, phase := 0xA#4 } := by simp [finish_eq, h]

/-! ## The phases that read the status -/

/-- READ_STATUS answered with an expected status runs its phase's action on accept (40_status_decode.md R101). -/
theorem execReadStatus_accepted {p : Phase} {evs : List StatusEvent} {v : Byte} {s : State} (hp : AtPhase p s)
    (hset : expectedAt p = some evs) (hev : decode8 v ∈ evs) :
    exec (.readStatus v) s = onAccept p (emit (.readStatus v) s) :=
  (execReadStatus_at hp hset v).trans (dispatchStatus_accepted hp hset hev)

/-- READ_STATUS answered with any other status finishes with 0 (R101). -/
theorem execReadStatus_rejected {p : Phase} {evs : List StatusEvent} {v : Byte} {s : State} (hp : AtPhase p s)
    (hset : expectedAt p = some evs) (hev : decode8 v ∉ evs) :
    exec (.readStatus v) s = .next (finish false (emit (.readStatus v) s)) :=
  (execReadStatus_at hp hset v).trans (dispatchStatus_rejected hp hset hev)

/-- Settles O25: 0x60 commits and runs the loop test, and every other status finishes before the commitment. -/
theorem rxCheckBody : Obligations.RxCheckBody := by
  intro s cap v hp harmed hcap
  have hexpected : decode8 v ∈ [StatusEvent.addrMatchWrite] ↔ v = 0x60#8 := by
    simpa using decode8_mem_expectedAt_iff (p := .rxCheck) rfl v
  have hcommit : acceptRxCheck (emit (.readStatus v) s) = _ := acceptRxCheck_of hcap
  split_ifs with hv hlt
  · rw [execReadStatus_accepted hp rfl (hexpected.mpr hv)]
    exact hcommit.trans (by rw [if_pos hlt]; rfl)
  · rw [execReadStatus_accepted hp rfl (hexpected.mpr hv)]
    exact hcommit.trans (by rw [if_neg hlt]; rfl)
  · rw [execReadStatus_rejected hp rfl (hexpected.not.mpr hv), finish_of_unarmed (s := emit _ s) harmed]
    rfl

/-- Settles O26: the two data statuses store the byte, and every other status finishes without the store. -/
theorem rxVerifyBody : Obligations.RxVerifyBody := by
  intro s buf pos cap b v hp harmed hbuf hpos hcap hlatch hlt hbound
  have hexpected : decode8 v ∈ [StatusEvent.dataRxAck, .dataRxNack] ↔ v = 0x80#8 ∨ v = 0x88#8 := by
    simpa using decode8_mem_expectedAt_iff (p := .rxVerify) rfl v
  have hstore : acceptRxVerify (emit (.readStatus v) s) = _ := acceptRxVerify_of hbuf hpos hcap hlatch hlt hbound
  split_ifs with hv hnext
  · rw [execReadStatus_accepted hp rfl (hexpected.mpr hv)]
    exact hstore.trans (by rw [afterStore, if_pos hnext]; rfl)
  · rw [execReadStatus_accepted hp rfl (hexpected.mpr hv)]
    exact hstore.trans (by rw [afterStore, if_neg hnext, emit_armed, harmed]; rfl)
  · rw [execReadStatus_rejected hp rfl (hexpected.not.mpr hv), finish_of_armed (s := emit _ s) harmed]
    rfl

/-! ## The byte and the finalization -/

/-- RECEIVE_BYTE at RX_XFER emits its request with the answer, which `afterReceive` takes (43_interface.md R212). -/
theorem execReceiveByte_at {s : State} {pos cap : Nat} {tmo : Timeout} (hp : AtPhase .rxXfer s) (hpos : s.pos = some pos)
    (hcap : s.cap = some cap) (htmo : s.tmo = some tmo) (answer : Option Byte) :
    exec (.receiveByte answer) s = .next (afterReceive answer (emit (.receiveByte (ackRx pos cap) tmo answer) s)) := by
  show execReceiveByte answer s = _
  rw [execReceiveByte, atPhase_at hp, hpos, hcap, htmo]
  rfl

/-- Settles O29: a byte is latched, and no byte finishes after the commitment. -/
theorem receiveByteBody : Obligations.ReceiveByteBody := by
  intro s pos cap tmo hp harmed hpos hcap htmo
  refine ⟨fun b => execReceiveByte_at hp hpos hcap htmo (some b), ?_⟩
  exact (execReceiveByte_at hp hpos hcap htmo none).trans
    (congrArg Host.Outcome.next (finish_of_armed (s := emit _ s) harmed false))

/-- RELEASE_BUS at FIN_RELEASE goes where KIND says (R214). -/
theorem execReleaseBus_at {s : State} {kind : Kind} (hp : AtPhase .finRelease s) (hkind : s.kind = some kind) :
    exec .releaseBus s = .next (goto (afterRelease kind) (emit .releaseBus s)) := by
  show execReleaseBus s = _
  rw [execReleaseBus, atPhase_at hp, hkind]
  rfl

/-- Settles O31: KIND chooses the phase. -/
theorem releaseBusBody : Obligations.ReleaseBusBody := by
  intro s kind hp hkind
  rw [execReleaseBus_at hp hkind]
  cases kind <;> rfl

/-- Settles O32: the two registers are the event's arguments. -/
theorem onDoneBody : Obligations.OnDoneBody := fun _ _ _ => execOnDone_at

/-- Settles O34: COMPLETE clears every register and keeps the rest. -/
theorem completeBody : Obligations.CompleteBody := fun _ _ hp hresult =>
  ⟨_, execComplete_at hp hresult, rfl, ⟨rfl, rfl, rfl, rfl, rfl, rfl, rfl, rfl⟩, rfl, rfl, rfl, rfl, rfl, rfl, rfl, rfl⟩

end Sys2Proof.Machine
end

section
/-! Single steps of a run, and a command that is not for the handler (spec/41_receive.md R131, spec/42_transmit.md R171). -/

namespace Sys2Proof.Machine

/-! ## Single steps -/

/-- A step takes a well-formed command from the head of the inbox. -/
theorem step_command {s : State} {p : Phase} {w : CmdWord} {rest : List Input} (hp : AtPhase p s)
    (hin : s.inbox = .command w :: rest) (hwf : (decodeCmd w).wellFormed s.params = true) :
    step s = exec (decodeCmd w) { s with inbox := rest } := by
  obtain ⟨hcommand, -⟩ := stepRunsDecodedInstruction
  exact hcommand s p w rest _ hp hin rfl hwf

/-- HANDLE_RECEIVE at IDLE is accepted (R130). -/
theorem step_handleReceive {s : State} {w : CmdWord} {rest : List Input} (hp : AtPhase .idle s) (hop : w.op = 0#1)
    (hcap : w.capacity < s.params.idxBound) (hin : s.inbox = .command w :: rest) :
    step s = .next (acceptReceive w.buf w.capacity w.timeout { s with inbox := rest }) := by
  have hd : decodeCmd w = .handleReceive w.buf w.capacity w.timeout := if_pos hop
  rw [step_command hp hin (by simpa [hd, Instr.wellFormed] using hcap), hd]
  exact takeCommand_idle (s := { s with inbox := rest }) hp _

/-- HANDLE_TRANSMIT at IDLE is accepted (42_transmit.md R170). -/
theorem step_handleTransmit {s : State} {w : CmdWord} {rest : List Input} (hp : AtPhase .idle s) (hop : w.op = 1#1)
    (hin : s.inbox = .command w :: rest) : step s = .next (acceptTransmit w.timeout { s with inbox := rest }) := by
  have hd : decodeCmd w = .handleTransmit w.timeout := if_neg (by simp [hop])
  rw [step_command hp hin (by rw [hd]; rfl), hd]
  exact takeCommand_idle (s := { s with inbox := rest }) hp _

/-- A step takes a well-formed answer to the phase's event from the head of the inbox. -/
theorem step_answer {s : State} {p : Phase} {a : Answer} {rest : List Input} {code : BitVec 4} {i : Instr} (hp : AtPhase p s)
    (hin : s.inbox = .answer a :: rest) (hcode : phaseEvent p = some code) (hd : decode (.evt code a) = .ok i)
    (hwf : i.wellFormed s.params = true) : step s = exec i { s with inbox := rest } := by
  obtain ⟨-, hanswer, -⟩ := stepRunsDecodedInstruction
  exact hanswer s p a rest code i hp hin hcode hd hwf

/-- Every phase that expects a status emits READ_STATUS (40_status_decode.md R100). -/
theorem phaseEvent_of_expectedAt {p : Phase} {evs : List StatusEvent} (h : expectedAt p = some evs) :
    phaseEvent p = some 0x1#4 := by
  cases p <;> simp [expectedAt] at h <;> rfl

/-- A status that arrives where it is expected runs the phase's action on accept (R101). -/
theorem step_accepted {s : State} {p : Phase} {evs : List StatusEvent} {v : Byte} {rest : List Input} (hp : AtPhase p s)
    (hset : expectedAt p = some evs) (hev : decode8 v ∈ evs) (hin : s.inbox = .answer (.status v) :: rest) :
    step s = onAccept p (emit (.readStatus v) { s with inbox := rest }) :=
  (step_answer hp hin (phaseEvent_of_expectedAt hset) rfl rfl).trans (execReadStatus_accepted hp hset hev)

/-- Any other status that arrives finishes with 0 (R101). -/
theorem step_rejected {s : State} {p : Phase} {evs : List StatusEvent} {v : Byte} {rest : List Input} (hp : AtPhase p s)
    (hset : expectedAt p = some evs) (hev : decode8 v ∉ evs) (hin : s.inbox = .answer (.status v) :: rest) :
    step s = .next (finish false (emit (.readStatus v) { s with inbox := rest })) :=
  (step_answer hp hin (phaseEvent_of_expectedAt hset) rfl rfl).trans (execReadStatus_rejected hp hset hev)

/-- RX_XFER's answer is a byte or none (43_interface.md R212). -/
theorem step_receiveByte {s : State} {pos cap : Nat} {tmo : Timeout} {ok : Bit} {b : Byte} {rest : List Input}
    (hp : AtPhase .rxXfer s) (hpos : s.pos = some pos) (hcap : s.cap = some cap) (htmo : s.tmo = some tmo)
    (hin : s.inbox = .answer (.byte ok b) :: rest) :
    step s = .next (afterReceive (decodeByteAnswer ok b)
      (emit (.receiveByte (ackRx pos cap) tmo (decodeByteAnswer ok b)) { s with inbox := rest })) :=
  (step_answer hp hin rfl rfl rfl).trans (execReceiveByte_at (s := { s with inbox := rest }) hp hpos hcap htmo _)

/-- FIN_RELEASE's answer is its completion (R214). -/
theorem step_releaseBus {s : State} {kind : Kind} {rest : List Input} (hp : AtPhase .finRelease s) (hkind : s.kind = some kind)
    (hin : s.inbox = .answer .done :: rest) :
    step s = .next (goto (afterRelease kind) (emit .releaseBus { s with inbox := rest })) :=
  (step_answer hp hin rfl rfl rfl).trans (execReleaseBus_at hp hkind)

/-- FIN_DONE's answer is its completion (R215). -/
theorem step_onDone {s : State} {buf : Ref} {pos : Nat} {rest : List Input} (hp : AtPhase .finDone s) (hbuf : s.rxbuf = some buf)
    (hpos : s.pos = some pos) (hin : s.inbox = .answer .done :: rest) :
    step s = .next (goto .complete (emit (.onDone buf pos) { s with inbox := rest })) :=
  (step_answer hp hin rfl rfl rfl).trans (execOnDone_at hp hbuf hpos)

/-- COMPLETE runs at its mark in the order of arrival. -/
theorem step_complete {s : State} {r : Bool} {rest : List Input} (hp : AtPhase .complete s) (hresult : s.result = some r)
    (hin : s.inbox = .answer .nothing :: rest) :
    step s = .next (clearRegisters (emit (.complete r) { s with inbox := rest })) :=
  (step_answer hp hin rfl rfl rfl).trans (execComplete_at hp hresult)

theorem clearRegisters_cleared (s : State) : RegistersCleared (clearRegisters s) :=
  ⟨rfl, rfl, rfl, rfl, rfl, rfl, rfl, rfl⟩

theorem core_run_one {s t : State} (h : step s = .next t) : Sys2Proof.core.run 1 s = .next t :=
  core_run_of_step 0 h

/-! ## A command that is not for the handler -/

/-- A rejected initial check ends in COMPLETE(false) with nothing committed (R131, 42_transmit.md R171). -/
theorem rejected_check_runs {s : State} {p : Phase} {evs : List StatusEvent} {v : Byte} {rest : List Input} (hp : AtPhase p s)
    (hset : expectedAt p = some evs) (hrej : decode8 v ∉ evs) (harmed : s.armed = false)
    (hin : s.inbox = .answer (.status v) :: .answer .nothing :: rest) :
    ∃ t : State, Sys2Proof.core.run 2 s = .next t ∧ AtPhase .idle t ∧ RegistersCleared t ∧
      t.trace = s.trace ++ [.readStatus v, .complete false] ∧ t.mem = s.mem ∧ t.inbox = rest := by
  have hread := step_rejected hp hset hrej hin
  have hdone : AtPhase .complete (finish false (emit (.readStatus v) { s with inbox := .answer .nothing :: rest })) := by
    simp [AtPhase, harmed]
  have hcomplete := step_complete hdone rfl rfl
  exact ⟨_, (core_run_of_step 1 hread).trans (core_run_one hcomplete), rfl, clearRegisters_cleared _,
    List.append_assoc .., rfl, rfl⟩

/-- Settles O59: either command goes to its check, and a status that is not its own is rejected there. -/
theorem notForHandlerRuns : Obligations.NotForHandlerRuns := by
  intro s w v rest hp hcap hrx htx hin
  obtain hop | hop : w.op = 0#1 ∨ w.op = 1#1 := by
    generalize w.op = op
    revert op
    decide
  · have hrej : decode8 v ∉ [StatusEvent.addrMatchWrite] := by
      simpa [decode8_mem_expectedAt_iff (p := .rxCheck) rfl] using hrx hop
    have hcommand : Sys2Proof.core.run 3 s = _ := core_run_of_step 2 (step_handleReceive hp hop hcap hin)
    rw [hcommand]
    exact rejected_check_runs (p := .rxCheck) rfl rfl hrej rfl rfl
  · have hrej : decode8 v ∉ [StatusEvent.addrMatchRead] := by
      simpa [decode8_mem_expectedAt_iff (p := .txCheck) rfl] using htx hop
    have hcommand : Sys2Proof.core.run 3 s = _ := core_run_of_step 2 (step_handleTransmit hp hop hin)
    rw [hcommand]
    exact rejected_check_runs (p := .txCheck) rfl rfl hrej rfl rfl

end Sys2Proof.Machine
end

section
/-! Whole receives from IDLE to IDLE (spec/41_receive.md R131, R135, R146, R249). -/

namespace Sys2Proof.Machine

/-! ## A receive on its way -/

/-- A receive that was accepted in `s₀` has committed, stored the bytes of `rounds` and nothing else, emitted `events`, and finds
`rest` still to arrive. -/
structure Received (s₀ : State) (buf cap : Nat) (tmo : Timeout) (rounds : List (Byte × Byte)) (events : List Event)
    (rest : List Input) (s : State) : Prop where
  kind : s.kind = some .receive
  armed : s.armed = true
  operands : RxAt s buf cap tmo rounds
  trace : s.trace = s₀.trace ++ events
  outside : ∀ a, a < buf ∨ buf + rounds.length ≤ a → readByte s.mem a = readByte s₀.mem a
  busyRefused : s.busyRefused = s₀.busyRefused
  params : s.params = s₀.params
  inbox : s.inbox = rest

/-- FIN_RELEASE, with a result to hand over. -/
def Finishing (r : Bool) (s : State) : Prop := AtPhase .finRelease s ∧ s.result = some r

/-- Where the loop test leads after `n` bytes (R132). -/
def AfterRxNext (n cap : Nat) (s : State) : Prop := if n < cap then AtPhase .rxXfer s else Finishing true s

theorem AfterRxNext.rxXfer {n cap : Nat} {s : State} (h : AfterRxNext n cap s) (hlt : n < cap) : AtPhase .rxXfer s := by
  rwa [AfterRxNext, if_pos hlt] at h

theorem AfterRxNext.finishing {n cap : Nat} {s : State} (h : AfterRxNext n cap s) (hfull : n = cap) : Finishing true s := by
  rwa [AfterRxNext, if_neg hfull.not_lt] at h

/-- How a receive loop fails at position `k`: what arrives, and the events it leads to (R135; 60_exceptions.md R243, R244). -/
def RxFails (k cap : Nat) (tmo : Timeout) (answers : List Input) (failing : List Event) : Prop :=
  (∃ x, answers = [.answer (.byte 0#1 x)] ∧ failing = [.receiveByte (ackRx k cap) tmo none]) ∨
    ∃ b u, ¬RxGood u ∧ answers = [.answer (.byte 1#1 b), .answer (.status u)] ∧
      failing = [.receiveByte (ackRx k cap) tmo (some b), .readStatus u]

/-- RX_VERIFY's action on accept below CAP is the store, then the loop test (R134). -/
theorem acceptRxVerify_stores {s : State} {buf : Ref} {pos cap : Nat} {b : Byte} (hbuf : s.rxbuf = some buf)
    (hpos : s.pos = some pos) (hcap : s.cap = some cap) (hlatch : s.latch = some b) (hlt : pos < cap) :
    acceptRxVerify s = rxNext (storeLatch buf pos b s) := by
  simp [acceptRxVerify, hbuf, hpos, hcap, hlatch, hlt]

section
variable {s₀ s : State} {buf cap : Nat} {tmo : Timeout} {rounds : List (Byte × Byte)} {events : List Event}
  {rest : List Input} {b v : Byte}

/-! ## What each operation makes of it -/

theorem Received.take {x : Input} (h : Received s₀ buf cap tmo rounds events (x :: rest) s) :
    Received s₀ buf cap tmo rounds events rest { s with inbox := rest } :=
  ⟨h.kind, h.armed, h.operands, h.trace, h.outside, h.busyRefused, h.params, rfl⟩

theorem Received.emit (h : Received s₀ buf cap tmo rounds events rest s) (e : Event) :
    Received s₀ buf cap tmo rounds (events ++ [e]) rest (emit e s) :=
  ⟨h.kind, h.armed, h.operands, by simp [h.trace], h.outside, h.busyRefused, h.params, h.inbox⟩

/-- PHASE, LATCH and RESULT tell nothing of what was received. -/
theorem Received.withControl (h : Received s₀ buf cap tmo rounds events rest s) (phase : BitVec 4) (latch : Option Byte)
    (result : Option Bool) :
    Received s₀ buf cap tmo rounds events rest { s with phase := phase, latch := latch, result := result } :=
  ⟨h.kind, h.armed, h.operands, h.trace, h.outside, h.busyRefused, h.params, h.inbox⟩

theorem Received.finish (h : Received s₀ buf cap tmo rounds events rest s) (r : Bool) :
    Received s₀ buf cap tmo rounds events rest (finish r s) ∧ Finishing r (finish r s) :=
  ⟨h.withControl _ s.latch (some r), by simp [AtPhase, h.armed], rfl⟩

theorem Received.rxNext (h : Received s₀ buf cap tmo rounds events rest s) :
    ∃ t, rxNext s = .next t ∧ Received s₀ buf cap tmo rounds events rest t ∧ AfterRxNext rounds.length cap t := by
  obtain ⟨-, hcap, -, hpos, -⟩ := h.operands
  refine ⟨_, rxNext_of hpos hcap, ?_⟩
  unfold AfterRxNext
  split
  · exact ⟨h.withControl _ s.latch s.result, rfl⟩
  · exact h.finish true

/-- The store is inside the buffer, below the new position (20_memory.md R58). -/
theorem Received.storeLatch (h : Received s₀ buf cap tmo rounds events rest s) (hlt : rounds.length < cap)
    (hbound : cap < s₀.params.idxBound) (hv : RxGood v) :
    Received s₀ buf cap tmo (rounds ++ [(b, v)]) events rest (storeLatch buf rounds.length b s) := by
  refine ⟨h.kind, h.armed, h.operands.storeLatch hlt (h.params ▸ hbound) b hv, h.trace, fun a ha => ?_, h.busyRefused, h.params,
    h.inbox⟩
  rw [List.length_append, List.length_singleton] at ha
  have hother : a ≠ rxAddr buf rounds.length := by unfold rxAddr; omega
  exact (readByte_writeByte_other _ b hother).trans (h.outside a (by omega))

/-! ## The parts of a receive -/

/-- The command and the passed check, two steps (R130, R131). -/
theorem receive_begins (hp : AtPhase .idle s₀) (hbound : cap < s₀.params.idxBound)
    (hin : s₀.inbox = .command { op := 0#1, buf := buf, capacity := cap, timeout := tmo } :: .answer (.status 0x60#8) :: rest) :
    ∃ t, Sys2Proof.core.run 2 s₀ = .next t ∧ Received s₀ buf cap tmo [] (rxBegun cap tmo []) rest t ∧ AfterRxNext 0 cap t := by
  have hcommand := step_handleReceive hp rfl hbound hin
  have hcheck := step_accepted (p := .rxCheck) (v := 0x60#8) (rest := rest)
    (s := acceptReceive buf cap tmo { s₀ with inbox := .answer (.status 0x60#8) :: rest }) rfl rfl (by decide) rfl
  have hbegun : Received s₀ buf cap tmo [] (rxBegun cap tmo []) rest
      (commit (emit (.readStatus 0x60#8) (acceptReceive buf cap tmo { s₀ with inbox := rest }))) :=
    ⟨rfl, rfl, ⟨rfl, rfl, rfl, rfl, Nat.zero_le cap, by simp [RxAccepted], by simp [RxStored]⟩, rfl, fun _ _ => rfl, rfl, rfl, rfl⟩
  obtain ⟨t, hnext, ht⟩ := hbegun.rxNext
  exact ⟨t, (core_run_of_step 1 hcommand).trans (core_run_one (hcheck.trans hnext)), ht⟩

/-- A byte arrives and is latched, one step (R133). -/
theorem Received.byte_latched (h : Received s₀ buf cap tmo rounds events (.answer (.byte 1#1 b) :: rest) s)
    (hp : AtPhase .rxXfer s) :
    ∃ t, step s = .next t ∧ AtPhase .rxVerify t ∧ t.latch = some b ∧
      Received s₀ buf cap tmo rounds (events ++ [.receiveByte (ackRx rounds.length cap) tmo (some b)]) rest t := by
  obtain ⟨-, hcap, htmo, hpos, -⟩ := h.operands
  exact ⟨_, step_receiveByte hp hpos hcap htmo h.inbox, rfl, rfl,
    (h.take.emit (.receiveByte (ackRx rounds.length cap) tmo (some b))).withControl _ (some b) s.result⟩

/-- No byte arrives, one step (R133). -/
theorem Received.byte_fails {x : Byte} (h : Received s₀ buf cap tmo rounds events (.answer (.byte 0#1 x) :: rest) s)
    (hp : AtPhase .rxXfer s) :
    ∃ t, step s = .next t ∧
      Received s₀ buf cap tmo rounds (events ++ [.receiveByte (ackRx rounds.length cap) tmo none]) rest t ∧ Finishing false t := by
  obtain ⟨-, hcap, htmo, hpos, -⟩ := h.operands
  exact ⟨_, step_receiveByte hp hpos hcap htmo h.inbox,
    (h.take.emit (.receiveByte (ackRx rounds.length cap) tmo none)).finish false⟩

/-- The latched byte's status is accepted, one step (R134). -/
theorem Received.status_accepted (h : Received s₀ buf cap tmo rounds events (.answer (.status v) :: rest) s)
    (hp : AtPhase .rxVerify s) (hlatch : s.latch = some b) (hlt : rounds.length < cap) (hbound : cap < s₀.params.idxBound)
    (hv : RxGood v) :
    ∃ t, step s = .next t ∧ Received s₀ buf cap tmo (rounds ++ [(b, v)]) (events ++ [.readStatus v]) rest t ∧
      AfterRxNext (rounds.length + 1) cap t := by
  obtain ⟨hbuf, hcap, -, hpos, -⟩ := h.operands
  have hstep := (step_accepted hp rfl (by simpa [RxGood] using hv) h.inbox).trans
    (acceptRxVerify_stores hbuf hpos hcap hlatch hlt)
  obtain ⟨t, hnext, hreceived, hafter⟩ := ((h.take.emit (.readStatus v)).storeLatch (b := b) hlt hbound hv).rxNext
  exact ⟨t, hstep.trans hnext, hreceived, by simpa using hafter⟩

/-- The latched byte's status is rejected and the byte is discarded, one step (R135). -/
theorem Received.status_rejected (h : Received s₀ buf cap tmo rounds events (.answer (.status v) :: rest) s)
    (hp : AtPhase .rxVerify s) (hv : ¬RxGood v) :
    ∃ t, step s = .next t ∧ Received s₀ buf cap tmo rounds (events ++ [.readStatus v]) rest t ∧ Finishing false t :=
  ⟨_, step_rejected hp rfl (by simpa [RxGood] using hv) h.inbox, (h.take.emit (.readStatus v)).finish false⟩

/-- One round of the loop, two steps. -/
theorem Received.round
    (h : Received s₀ buf cap tmo rounds (rxBegun cap tmo rounds) (.answer (.byte 1#1 b) :: .answer (.status v) :: rest) s)
    (hp : AtPhase .rxXfer s) (hlt : rounds.length < cap) (hbound : cap < s₀.params.idxBound) (hv : RxGood v) :
    ∃ t, Sys2Proof.core.run 2 s = .next t ∧
      Received s₀ buf cap tmo (rounds ++ [(b, v)]) (rxBegun cap tmo (rounds ++ [(b, v)])) rest t ∧
      AfterRxNext (rounds.length + 1) cap t := by
  obtain ⟨u, hbyte, hp', hlatch, hu⟩ := h.byte_latched hp
  obtain ⟨t, hstatus, ht, hafter⟩ := hu.status_accepted hp' hlatch hlt hbound hv
  rw [List.append_assoc, List.singleton_append, ← rxBegun_concat] at ht
  exact ⟨t, (core_run_of_step 1 hbyte).trans (core_run_one hstatus), ht, hafter⟩

/-- The rounds of `todo`, by induction on them. -/
theorem Received.loop {todo : List (Byte × Byte)}
    (h : Received s₀ buf cap tmo rounds (rxBegun cap tmo rounds) (rxAnswers todo ++ rest) s)
    (hafter : AfterRxNext rounds.length cap s) (hfit : rounds.length + todo.length ≤ cap) (hbound : cap < s₀.params.idxBound)
    (hacc : RxAccepted todo) :
    ∃ t, Sys2Proof.core.run (2 * todo.length) s = .next t ∧
      Received s₀ buf cap tmo (rounds ++ todo) (rxBegun cap tmo (rounds ++ todo)) rest t ∧
      AfterRxNext (rounds.length + todo.length) cap t := by
  induction todo generalizing rounds s with
  | nil => exact ⟨s, rfl, by simpa [rxAnswers] using h, hafter⟩
  | cons r todo ih =>
    obtain ⟨hr, htodo⟩ := List.forall_mem_cons.mp hacc
    rw [List.length_cons] at hfit
    have hlt : rounds.length < cap := by omega
    obtain ⟨u, hround, hu, hafter'⟩ := h.round (hafter.rxXfer hlt) hlt hbound hr
    obtain ⟨t, hrun, ht, hend⟩ := ih hu (by simpa using hafter') (by simp; omega) htodo
    have hsteps : 2 * (r :: todo).length = 2 + 2 * todo.length := by rw [List.length_cons]; omega
    rw [hsteps]
    refine ⟨t, core_run_add hround hrun, by simpa using ht, ?_⟩
    simpa [Nat.add_assoc, Nat.add_comm 1] using hend

/-- The loop fails, in one step or two. -/
theorem Received.loop_fails {answers : List Input} {failing : List Event}
    (h : Received s₀ buf cap tmo rounds events (answers ++ rest) s) (hp : AtPhase .rxXfer s)
    (hfails : RxFails rounds.length cap tmo answers failing) :
    ∃ t, Sys2Proof.core.run answers.length s = .next t ∧ Received s₀ buf cap tmo rounds (events ++ failing) rest t ∧
      Finishing false t := by
  obtain ⟨x, rfl, rfl⟩ | ⟨b, u, hu, rfl, rfl⟩ := hfails
  · obtain ⟨t, hbyte, ht⟩ := h.byte_fails hp
    exact ⟨t, core_run_one hbyte, ht⟩
  · obtain ⟨w, hbyte, hp', -, hw⟩ := h.byte_latched hp
    obtain ⟨t, hstatus, ht⟩ := hw.status_rejected hp' hu
    rw [List.append_assoc] at ht
    exact ⟨t, (core_run_of_step 1 hbyte).trans (core_run_one hstatus), ht⟩

/-- The finalization, three steps (R137 to R139). -/
theorem Received.finalizes {r : Bool}
    (h : Received s₀ buf cap tmo rounds events (.answer .done :: .answer .done :: .answer .nothing :: rest) s)
    (hfin : Finishing r s) :
    ∃ t : State, Sys2Proof.core.run 3 s = .next t ∧ AtPhase .idle t ∧ RegistersCleared t ∧
      t.trace = s₀.trace ++ (events ++ [.releaseBus, .onDone buf rounds.length, .complete r]) ∧ RxStored t.mem buf rounds ∧
      (∀ a, a < buf ∨ buf + rounds.length ≤ a → readByte t.mem a = readByte s₀.mem a) ∧
      t.busyRefused = s₀.busyRefused ∧ t.params = s₀.params ∧ t.inbox = rest := by
  obtain ⟨hp, hresult⟩ := hfin
  obtain ⟨hbuf, -, -, hpos, -, -, hstored⟩ := h.operands
  have hrelease := step_releaseBus hp h.kind h.inbox
  refine ⟨_, (core_run_of_step 2 hrelease).trans (Eq.trans (core_run_of_step 1 (step_onDone rfl hbuf hpos rfl))
    (core_run_one (step_complete rfl hresult rfl))), rfl, clearRegisters_cleared _, ?_, hstored, h.outside, h.busyRefused,
    h.params, rfl⟩
  simp [h.trace]

end

/-! ## The two statements -/

/-- Settles O55: the start, CAP rounds, and the finalization with 1. -/
theorem fullReceiveRuns : Obligations.FullReceiveRuns := by
  intro s buf cap tmo rounds rest hp hlen hbound hacc hin
  obtain ⟨u, hbegin, hu, hafter⟩ := receive_begins hp hbound hin
  obtain ⟨w, hloop, hw, hend⟩ := hu.loop hafter (by simp [hlen]) hbound hacc
  obtain ⟨t, hfinal, ht⟩ := hw.finalizes (hend.finishing (by simp [hlen]))
  have hsteps : 1 + (2 * cap + 4) = 2 + (2 * rounds.length + 3) := by omega
  rw [hsteps]
  rw [List.nil_append, hlen] at ht
  exact ⟨t, core_run_add hbegin (core_run_add hloop hfinal), ht⟩

/-- Settles O56: the start, the accepted rounds, the failing exchange, and the finalization with 0. -/
theorem abortedReceiveRuns : Obligations.AbortedReceiveRuns := by
  intro s buf cap tmo rounds rest answers failing hp hlt hbound hacc hfails hin
  obtain ⟨u, hbegin, hu, hafter⟩ := receive_begins hp hbound hin
  obtain ⟨w, hloop, hw, hend⟩ := hu.loop hafter (by simpa using hlt.le) hbound hacc
  obtain ⟨x, hfail, hx, hfin⟩ := hw.loop_fails (hend.rxXfer (by simpa using hlt)) hfails
  obtain ⟨t, hfinal, hidle, hclear, htrace, hstored, houtside, -, -, hinbox⟩ := hx.finalizes hfin
  have hsteps : 1 + (2 * rounds.length + 4 + answers.length) = 2 + (2 * rounds.length + (answers.length + 3)) := by omega
  rw [hsteps]
  exact ⟨t, core_run_add hbegin (core_run_add hloop (core_run_add hfail hfinal)), hidle, hclear, htrace, hstored, houtside, hinbox⟩

end Sys2Proof.Machine
end

section
/-! The transmit command, phase bodies and loop test (spec/42_transmit.md R170 to R175), and the
shape a finished transmit has (R183). -/

namespace Sys2Proof.Machine

/-- Settles O51: the events at COMPLETE lack COMPLETE's own to be one of the shapes. -/
theorem transmitHasOneOfFourShapes : Obligations.TransmitHasOneOfFourShapes := by
  intro s tmo ⟨_, hstart, hshape⟩ hp hkind htmo
  obtain ⟨r, hresult, hended⟩ := (hshape _ hp).transmitEnded hkind htmo
  refine ⟨_, execComplete_at hp hresult, ?_, ?_⟩ <;> rw [invEvents_clearRegisters_emit _ hstart]
  · exact hended.txShape
  · rw [reportedResult_append_complete, hresult]

/-! ## The command and the loop test -/

/-- Settles O13: a command is accepted at IDLE and refused BUSY_COMMAND elsewhere. -/
theorem handleTransmitEffect : Obligations.HandleTransmitEffect := by
  intro s p timeout hp
  split_ifs with hidle
  · subst hidle
    exact takeCommand_idle hp _
  · exact takeCommand_busy hp hidle _

/-- Settles O16: the loop test compares the two registers. -/
theorem txNextLoopTest : Obligations.TxNextLoopTest := fun _ _ _ => txNext_of

/-! ## The phases that read the status -/

theorem decode8_mem_txCheck_iff (v : Byte) : decode8 v ∈ [StatusEvent.addrMatchRead] ↔ v = 0xA8#8 := by
  simpa using decode8_mem_expectedAt_iff (p := .txCheck) rfl v

theorem decode8_mem_txVerify_iff (v : Byte) : decode8 v ∈ [StatusEvent.dataTxAck] ↔ v = 0xB8#8 := by
  simpa using decode8_mem_expectedAt_iff (p := .txVerify) rfl v

/-- Settles O27: 0xA8 goes on, and every other status finishes before the commitment. -/
theorem txCheckBody : Obligations.TxCheckBody := by
  intro s v hp harmed
  split_ifs with hv
  · exact execReadStatus_accepted hp rfl ((decode8_mem_txCheck_iff v).mpr hv)
  · rw [execReadStatus_rejected hp rfl ((decode8_mem_txCheck_iff v).not.mpr hv), finish_of_unarmed (s := emit _ s) harmed]
    rfl

/-- Settles O28: 0xB8 advances POS and runs the loop test, and every other status finishes where POS stands. -/
theorem txVerifyBody : Obligations.TxVerifyBody := by
  intro s pos eff v hp harmed hpos heff hlt hbound
  have hadvance : acceptTxVerify (emit (.readStatus v) s) = _ := acceptTxVerify_of hpos heff hlt hbound
  split_ifs with hv hnext
  · rw [execReadStatus_accepted hp rfl ((decode8_mem_txVerify_iff v).mpr hv)]
    exact hadvance.trans (by rw [if_pos hnext]; rfl)
  · rw [execReadStatus_accepted hp rfl ((decode8_mem_txVerify_iff v).mpr hv)]
    exact hadvance.trans (by rw [if_neg hnext, emit_armed, harmed]; rfl)
  · rw [execReadStatus_rejected hp rfl ((decode8_mem_txVerify_iff v).not.mpr hv), finish_of_armed (s := emit _ s) harmed]
    rfl

/-! ## The byte and the source -/

/-- TRANSMIT_BYTE at TX_XFER emits its request with the answer, which `afterTransmit` takes (43_interface.md R213). -/
theorem execTransmitByte_at {s : State} {pos eff : Nat} {tmo : Timeout} {d : Byte} (hp : AtPhase .txXfer s)
    (hpos : s.pos = some pos) (heff : s.eff = some eff) (htmo : s.tmo = some tmo) (hbyte : readByte s.txsrc pos = some d)
    (ok : Bool) :
    exec (.transmitByte ok) s = .next (afterTransmit ok (emit (.transmitByte d (ackTx pos eff) tmo ok) s)) := by
  show execTransmitByte ok s = _
  rw [execTransmitByte, atPhase_at hp, hpos, heff, htmo]
  simp [withSourceByte, hbyte]

/-- Settles O30: a byte sent goes on to its status, and a failure finishes after the commitment. -/
theorem transmitByteBody : Obligations.TransmitByteBody := by
  intro s pos eff tmo v ok hp harmed hpos heff htmo hbyte
  rw [execTransmitByte_at hp hpos heff htmo hbyte]
  cases ok with
  | true => rfl
  | false => exact congrArg Host.Outcome.next (finish_of_armed (s := emit _ s) harmed false)

/-- The source's region holds its bytes at their indices (10_state.md R37). -/
theorem readByte_source (src : List Byte) (i : Nat) : readByte (regionFrom 0 src) i = src[i]? := by
  simpa using readByte_regionFrom src 0 i

/-- PROVIDE at TX_PROVIDE takes the source and runs the loop test from POS = 0 (43_interface.md R216). -/
theorem execProvide_at {s : State} (hp : AtPhase .txProvide s) (src : List Byte) (c len : Nat) :
    exec (.provide src c len) s = txNext (takeSource src c len (emit (.provide src c len) s)) :=
  atPhase_at hp _

/-- Settles O33: the loop test is at POS = 0 with ARMED 1, and writes PHASE and RESULT only. -/
theorem provideBody : Obligations.ProvideBody := by
  intro s src c len hp _ _ _
  have hnext : txNext (takeSource src c len (emit (.provide src c len) s)) =
      .next (if 0 < min len c then goto .txXfer _ else finish true _) := txNext_of rfl rfl
  refine ⟨_, (execProvide_at hp src c len).trans hnext, ?_⟩
  split_ifs <;> exact
    ⟨rfl, rfl, rfl, rfl, rfl, readByte_source src, rfl, rfl, rfl, rfl, rfl, rfl, rfl, rfl, rfl, rfl, rfl⟩

end Sys2Proof.Machine
end

section
/-! Whole transmits from IDLE to IDLE (spec/42_transmit.md R171, R172, R176, R183). -/

namespace Sys2Proof.Machine

/-! ## A transmit on its way -/

/-- A transmit that was accepted in `s₀` holds its source, has sent `k` accepted bytes, written no host memory, emitted `events`, and
finds `rest` still to arrive. -/
structure Transmitted (s₀ : State) (src : List Byte) (c len : Nat) (tmo : Timeout) (k : Nat) (events : List Event)
    (rest : List Input) (s : State) : Prop where
  kind : s.kind = some .transmit
  armed : s.armed = true
  operands : TxAt s src c len tmo k
  trace : s.trace = s₀.trace ++ events
  mem : s.mem = s₀.mem
  busyRefused : s.busyRefused = s₀.busyRefused
  params : s.params = s₀.params
  inbox : s.inbox = rest

/-- Where the loop test leads after `k` bytes (R173). -/
def AfterTxNext (k eff : Nat) (s : State) : Prop := if k < eff then AtPhase .txXfer s else Finishing true s

theorem AfterTxNext.txXfer {k eff : Nat} {s : State} (h : AfterTxNext k eff s) (hlt : k < eff) : AtPhase .txXfer s := by
  rwa [AfterTxNext, if_pos hlt] at h

theorem AfterTxNext.finishing {k eff : Nat} {s : State} (h : AfterTxNext k eff s) (hend : k = eff) : Finishing true s := by
  rwa [AfterTxNext, if_neg hend.not_lt] at h

/-- How a transmit loop fails at position `k` with the byte `d`: what arrives, and the events it leads to (R174, R175;
60_exceptions.md R243, R244). -/
def TxFails (d : Byte) (k eff : Nat) (tmo : Timeout) (answers : List Input) (failing : List Event) : Prop :=
  (answers = [.answer (.ok 0#1)] ∧ failing = [.transmitByte d (ackTx k eff) tmo false]) ∨
    ∃ u, u ≠ 0xB8#8 ∧ answers = [.answer (.ok 1#1), .answer (.status u)] ∧
      failing = [.transmitByte d (ackTx k eff) tmo true, .readStatus u]

/-- TX_VERIFY's action on accept is the next position, then the loop test (R175). -/
theorem acceptTxVerify_advances {s : State} {pos : Nat} (hpos : s.pos = some pos) :
    acceptTxVerify s = txNext (advancePos pos s) := by
  rw [acceptTxVerify, hpos, withReg_some]

theorem txAnswers_succ (k : Nat) :
    txAnswers (k + 1) = .answer (.ok 1#1) :: .answer (.status (statusCode .dataTxAck)) :: txAnswers k := rfl

/-- The source that PROVIDE answers, before its first byte (R172). -/
theorem takeSource_txAt {s : State} {src : List Byte} {c len : Nat} {tmo : Timeout} (htmo : s.tmo = some tmo)
    (hlen : src.length = c) : TxAt (takeSource src c len s) src c len tmo 0 :=
  ⟨htmo, rfl, hlen, rfl, rfl, rfl, Nat.zero_le _⟩

/-- TXSRC holds the source's bytes at their indices (10_state.md R37). -/
theorem TxAt.readByte_txsrc {s : State} {src : List Byte} {c len : Nat} {tmo : Timeout} {k : Nat} (h : TxAt s src c len tmo k)
    (i : Nat) : readByte s.txsrc i = src[i]? := by
  obtain ⟨-, hsrc, -⟩ := h
  rw [hsrc, readByte_source]

/-- The effective length is never beyond the source (30_encoding.md R76). -/
theorem exists_getElem?_of_lt_effLength {src : List Byte} {c len k : Nat} (hlen : src.length = c) (hlt : k < effLength len c) :
    ∃ d, src[k]? = some d :=
  ⟨src[k]'(hlen ▸ hlt.trans_le (Nat.min_le_right len c)), List.getElem?_eq_getElem _⟩

/-! ## Steps -/

/-- TX_PROVIDE's answer is the source, its capacity and the declared length (43_interface.md R216). -/
theorem step_provide {s : State} {src : List Byte} {c len : Nat} {rest : List Input} (hp : AtPhase .txProvide s)
    (hlen : src.length = c) (hc : c < s.params.idxBound) (hl : len < s.params.lenBound)
    (hin : s.inbox = .answer (.source src c len) :: rest) :
    step s = txNext (takeSource src c len (emit (.provide src c len) { s with inbox := rest })) :=
  (step_answer hp hin rfl rfl (by simp [Instr.wellFormed, hlen, hc, hl])).trans
    (execProvide_at (s := { s with inbox := rest }) hp src c len)

/-- TX_XFER's answer says whether the byte was sent (R213). -/
theorem step_transmitByte {s : State} {pos eff : Nat} {tmo : Timeout} {d : Byte} {ok : Bit} {rest : List Input}
    (hp : AtPhase .txXfer s) (hpos : s.pos = some pos) (heff : s.eff = some eff) (htmo : s.tmo = some tmo)
    (hbyte : readByte s.txsrc pos = some d) (hin : s.inbox = .answer (.ok ok) :: rest) :
    step s = .next (afterTransmit (boolOfBit ok)
      (emit (.transmitByte d (ackTx pos eff) tmo (boolOfBit ok)) { s with inbox := rest })) :=
  (step_answer hp hin rfl rfl rfl).trans
    (execTransmitByte_at (s := { s with inbox := rest }) hp hpos heff htmo hbyte _)

section
variable {s₀ s : State} {src : List Byte} {c len : Nat} {tmo : Timeout} {k : Nat} {d v : Byte} {events : List Event}
  {rest : List Input}

/-! ## What each operation makes of it -/

theorem Transmitted.take {x : Input} (h : Transmitted s₀ src c len tmo k events (x :: rest) s) :
    Transmitted s₀ src c len tmo k events rest { s with inbox := rest } :=
  ⟨h.kind, h.armed, h.operands, h.trace, h.mem, h.busyRefused, h.params, rfl⟩

theorem Transmitted.emit (h : Transmitted s₀ src c len tmo k events rest s) (e : Event) :
    Transmitted s₀ src c len tmo k (events ++ [e]) rest (emit e s) :=
  ⟨h.kind, h.armed, h.operands, by simp [h.trace], h.mem, h.busyRefused, h.params, h.inbox⟩

/-- PHASE and RESULT tell nothing of what was sent. -/
theorem Transmitted.withControl (h : Transmitted s₀ src c len tmo k events rest s) (phase : BitVec 4) (result : Option Bool) :
    Transmitted s₀ src c len tmo k events rest { s with phase := phase, result := result } :=
  ⟨h.kind, h.armed, h.operands, h.trace, h.mem, h.busyRefused, h.params, h.inbox⟩

theorem Transmitted.finish (h : Transmitted s₀ src c len tmo k events rest s) (r : Bool) :
    Transmitted s₀ src c len tmo k events rest (finish r s) ∧ Finishing r (finish r s) :=
  ⟨h.withControl _ (some r), by simp [AtPhase, h.armed], rfl⟩

theorem Transmitted.txNext (h : Transmitted s₀ src c len tmo k events rest s) :
    ∃ t, txNext s = .next t ∧ Transmitted s₀ src c len tmo k events rest t ∧ AfterTxNext k (effLength len c) t := by
  obtain ⟨-, -, -, -, heff, hpos, -⟩ := h.operands
  refine ⟨_, txNext_of hpos heff, ?_⟩
  unfold AfterTxNext
  split
  · exact ⟨h.withControl _ s.result, rfl⟩
  · exact h.finish true

theorem Transmitted.advancePos (h : Transmitted s₀ src c len tmo k events rest s) (hlt : k < effLength len c)
    (hbound : effLength len c < s₀.params.idxBound) :
    Transmitted s₀ src c len tmo (k + 1) events rest (advancePos k s) :=
  ⟨h.kind, h.armed, h.operands.advancePos hlt (h.params ▸ hbound), h.trace, h.mem, h.busyRefused, h.params, h.inbox⟩

/-! ## The parts of a transmit -/

/-- The command, the passed check and the source, three steps (R170 to R172). -/
theorem transmit_begins (hp : AtPhase .idle s₀) (hlen : src.length = c) (hc : c < s₀.params.idxBound)
    (hl : len < s₀.params.lenBound)
    (hin : s₀.inbox = .command { op := 1#1, buf := 0, capacity := 0, timeout := tmo } :: .answer (.status 0xA8#8) ::
      .answer (.source src c len) :: rest) :
    ∃ t, Sys2Proof.core.run 3 s₀ = .next t ∧ Transmitted s₀ src c len tmo 0 (txBegun src c len tmo 0) rest t ∧
      AfterTxNext 0 (effLength len c) t := by
  have hcommand := step_handleTransmit hp rfl hin
  have hcheck := step_accepted (p := .txCheck) (v := 0xA8#8) (rest := .answer (.source src c len) :: rest)
    (s := acceptTransmit tmo { s₀ with inbox := .answer (.status 0xA8#8) :: .answer (.source src c len) :: rest })
    rfl rfl (by decide) rfl
  have hprovide := step_provide (rest := rest)
    (s := goto .txProvide (emit (.readStatus 0xA8#8)
      (acceptTransmit tmo { s₀ with inbox := .answer (.source src c len) :: rest }))) rfl hlen hc hl rfl
  have hbegun : Transmitted s₀ src c len tmo 0 (txBegun src c len tmo 0) rest
      (takeSource src c len (emit (.provide src c len) (goto .txProvide (emit (.readStatus 0xA8#8)
        (acceptTransmit tmo { s₀ with inbox := rest }))))) :=
    ⟨rfl, rfl, takeSource_txAt rfl hlen, List.append_assoc .., rfl, rfl, rfl, rfl⟩
  obtain ⟨t, hnext, ht⟩ := hbegun.txNext
  exact ⟨t, (core_run_of_step 2 hcommand).trans ((core_run_of_step 1 hcheck).trans (core_run_one (hprovide.trans hnext))), ht⟩

/-- A byte is sent, one step (R174). -/
theorem Transmitted.byte_sent (h : Transmitted s₀ src c len tmo k events (.answer (.ok 1#1) :: rest) s)
    (hp : AtPhase .txXfer s) (hd : src[k]? = some d) :
    ∃ t, step s = .next t ∧ AtPhase .txVerify t ∧
      Transmitted s₀ src c len tmo k (events ++ [.transmitByte d (ackTx k (effLength len c)) tmo true]) rest t := by
  obtain ⟨htmo, -, -, -, heff, hpos, -⟩ := h.operands
  exact ⟨_, step_transmitByte hp hpos heff htmo ((h.operands.readByte_txsrc k).trans hd) h.inbox, rfl,
    (h.take.emit (.transmitByte d (ackTx k (effLength len c)) tmo true)).withControl _ s.result⟩

/-- A byte is not sent, one step (R174). -/
theorem Transmitted.byte_fails (h : Transmitted s₀ src c len tmo k events (.answer (.ok 0#1) :: rest) s)
    (hp : AtPhase .txXfer s) (hd : src[k]? = some d) :
    ∃ t, step s = .next t ∧
      Transmitted s₀ src c len tmo k (events ++ [.transmitByte d (ackTx k (effLength len c)) tmo false]) rest t ∧
      Finishing false t := by
  obtain ⟨htmo, -, -, -, heff, hpos, -⟩ := h.operands
  exact ⟨_, step_transmitByte hp hpos heff htmo ((h.operands.readByte_txsrc k).trans hd) h.inbox,
    (h.take.emit (.transmitByte d (ackTx k (effLength len c)) tmo false)).finish false⟩

/-- The sent byte's status is accepted, one step (R175). -/
theorem Transmitted.status_accepted
    (h : Transmitted s₀ src c len tmo k events (.answer (.status (statusCode .dataTxAck)) :: rest) s)
    (hp : AtPhase .txVerify s) (hlt : k < effLength len c) (hbound : effLength len c < s₀.params.idxBound) :
    ∃ t, step s = .next t ∧
      Transmitted s₀ src c len tmo (k + 1) (events ++ [.readStatus (statusCode .dataTxAck)]) rest t ∧
      AfterTxNext (k + 1) (effLength len c) t := by
  have hread := h.take.emit (.readStatus (statusCode .dataTxAck))
  obtain ⟨-, -, -, -, -, hpos, -⟩ := hread.operands
  have hstep := (step_accepted hp rfl (by decide) h.inbox).trans (acceptTxVerify_advances hpos)
  obtain ⟨t, hnext, ht⟩ := (hread.advancePos hlt hbound).txNext
  exact ⟨t, hstep.trans hnext, ht⟩

/-- The sent byte's status is rejected, one step (R175). -/
theorem Transmitted.status_rejected (h : Transmitted s₀ src c len tmo k events (.answer (.status v) :: rest) s)
    (hp : AtPhase .txVerify s) (hv : v ≠ 0xB8#8) :
    ∃ t, step s = .next t ∧ Transmitted s₀ src c len tmo k (events ++ [.readStatus v]) rest t ∧ Finishing false t :=
  ⟨_, step_rejected hp rfl ((decode8_mem_txVerify_iff v).not.mpr hv) h.inbox, (h.take.emit (.readStatus v)).finish false⟩

/-- One round of the loop, two steps. -/
theorem Transmitted.round
    (h : Transmitted s₀ src c len tmo k (txBegun src c len tmo k)
      (.answer (.ok 1#1) :: .answer (.status (statusCode .dataTxAck)) :: rest) s)
    (hp : AtPhase .txXfer s) (hlt : k < effLength len c) (hbound : effLength len c < s₀.params.idxBound) :
    ∃ t, Sys2Proof.core.run 2 s = .next t ∧
      Transmitted s₀ src c len tmo (k + 1) (txBegun src c len tmo (k + 1)) rest t ∧
      AfterTxNext (k + 1) (effLength len c) t := by
  obtain ⟨-, -, hlen, -⟩ := h.operands
  obtain ⟨d, hd⟩ := exists_getElem?_of_lt_effLength hlen hlt
  obtain ⟨u, hbyte, hp', hu⟩ := h.byte_sent hp hd
  obtain ⟨t, hstatus, ht, hafter⟩ := hu.status_accepted hp' hlt hbound
  rw [List.append_assoc, List.singleton_append, ← txBegun_succ hd] at ht
  exact ⟨t, (core_run_of_step 1 hbyte).trans (core_run_one hstatus), ht, hafter⟩

/-- `n` rounds more, by induction on them. -/
theorem Transmitted.loop {n : Nat}
    (h : Transmitted s₀ src c len tmo k (txBegun src c len tmo k) (txAnswers n ++ rest) s)
    (hafter : AfterTxNext k (effLength len c) s) (hfit : k + n ≤ effLength len c)
    (hbound : effLength len c < s₀.params.idxBound) :
    ∃ t, Sys2Proof.core.run (2 * n) s = .next t ∧
      Transmitted s₀ src c len tmo (k + n) (txBegun src c len tmo (k + n)) rest t ∧
      AfterTxNext (k + n) (effLength len c) t := by
  induction n generalizing k s with
  | zero => exact ⟨s, rfl, h, hafter⟩
  | succ n ih =>
    have hlt : k < effLength len c := by omega
    rw [txAnswers_succ] at h
    obtain ⟨u, hround, hu, hafter'⟩ := h.round (hafter.txXfer hlt) hlt hbound
    obtain ⟨t, hrun, ht, hend⟩ := ih hu hafter' (by omega)
    have hsteps : 2 * (n + 1) = 2 + 2 * n := by omega
    have hcount : k + (n + 1) = k + 1 + n := by omega
    rw [hsteps, hcount]
    exact ⟨t, core_run_add hround hrun, ht, hend⟩

/-- The loop fails, in one step or two. -/
theorem Transmitted.loop_fails {answers : List Input} {failing : List Event}
    (h : Transmitted s₀ src c len tmo k events (answers ++ rest) s) (hp : AtPhase .txXfer s) (hd : src[k]? = some d)
    (hfails : TxFails d k (effLength len c) tmo answers failing) :
    ∃ t, Sys2Proof.core.run answers.length s = .next t ∧ Transmitted s₀ src c len tmo k (events ++ failing) rest t ∧
      Finishing false t := by
  obtain ⟨rfl, rfl⟩ | ⟨u, hu, rfl, rfl⟩ := hfails
  · obtain ⟨t, hbyte, ht⟩ := h.byte_fails hp hd
    exact ⟨t, core_run_one hbyte, ht⟩
  · obtain ⟨w, hbyte, hp', hw⟩ := h.byte_sent hp hd
    obtain ⟨t, hstatus, ht⟩ := hw.status_rejected hp' hu
    rw [List.append_assoc] at ht
    exact ⟨t, (core_run_of_step 1 hbyte).trans (core_run_one hstatus), ht⟩

/-- The finalization, two steps: a transmit has no callback (R176). -/
theorem Transmitted.finalizes {r : Bool}
    (h : Transmitted s₀ src c len tmo k events (.answer .done :: .answer .nothing :: rest) s) (hfin : Finishing r s) :
    ∃ t : State, Sys2Proof.core.run 2 s = .next t ∧ AtPhase .idle t ∧ RegistersCleared t ∧
      t.trace = s₀.trace ++ (events ++ [.releaseBus, .complete r]) ∧ t.mem = s₀.mem ∧
      t.busyRefused = s₀.busyRefused ∧ t.params = s₀.params ∧ t.inbox = rest := by
  obtain ⟨hp, hresult⟩ := hfin
  have hrelease := step_releaseBus hp h.kind h.inbox
  refine ⟨_, (core_run_of_step 1 hrelease).trans (core_run_one (step_complete rfl hresult rfl)), rfl, clearRegisters_cleared _,
    ?_, h.mem, h.busyRefused, h.params, rfl⟩
  simp [h.trace]

end

/-! ## The two statements -/

/-- Settles O57: the start, min(L, C) rounds, and the finalization with 1. -/
theorem fullTransmitRuns : Obligations.FullTransmitRuns := by
  intro s tmo src c len rest hp hlen hc hl hin
  have hbound : effLength len c < s.params.idxBound := (Nat.min_le_right len c).trans_lt hc
  obtain ⟨u, hbegin, hu, hafter⟩ := transmit_begins hp hlen hc hl hin
  obtain ⟨w, hloop, hw, hend⟩ := hu.loop hafter (Nat.zero_add _).le hbound
  obtain ⟨t, hfinal, ht⟩ := hw.finalizes (hend.finishing (Nat.zero_add _))
  have hsteps : 1 + (2 * min len c + 4) = 3 + (2 * min len c + 2) := by omega
  rw [hsteps]
  rw [Nat.zero_add] at ht
  exact ⟨t, core_run_add hbegin (core_run_add hloop hfinal), ht⟩

/-- Settles O58: the start, the accepted rounds, the failing exchange, and the finalization with 0. -/
theorem abortedTransmitRuns : Obligations.AbortedTransmitRuns := by
  intro s tmo src c len k d rest answers failing hp hlen hc hl hlt hd hfails hin
  have hbound : effLength len c < s.params.idxBound := (Nat.min_le_right len c).trans_lt hc
  obtain ⟨u, hbegin, hu, hafter⟩ := transmit_begins hp hlen hc hl hin
  obtain ⟨w, hloop, hw, hend⟩ := hu.loop hafter ((Nat.zero_add k).trans_le hlt.le) hbound
  rw [Nat.zero_add] at hw hend
  obtain ⟨x, hfail, hx, hfin⟩ := hw.loop_fails (hend.txXfer hlt) hd hfails
  obtain ⟨t, hfinal, hidle, hclear, htrace, hmem, -, -, hinbox⟩ := hx.finalizes hfin
  have hsteps : 1 + (2 * k + 4 + answers.length) = 3 + (2 * k + (answers.length + 2)) := by omega
  rw [hsteps]
  exact ⟨t, core_run_add hbegin (core_run_add hloop (core_run_add hfail hfinal)), hidle, hclear, htrace, hmem, hinbox⟩

end Sys2Proof.Machine
end

section
/-! TMO is passed to the byte primitives as it stands, and kept until the invocation ends (spec/43_interface.md R218, spec/10_state.md
R32). -/

namespace Sys2Proof.Machine

/-- The TMO argument of an event, for the two events that have one (30_encoding.md R72). -/
def eventTimeout : Event → Option Timeout
  | .receiveByte _ tmo _ | .transmitByte _ _ tmo _ => some tmo
  | .readStatus _ | .releaseBus | .onDone _ _ | .provide _ _ _ | .complete _ => none

/-- An exchange's event carries the value of TMO, if it carries a timeout. -/
theorem Exchanged.tmo_of_eventTimeout {s t : State} {i : Instr} {p : Phase} {e : Event} {tmo : Timeout}
    (h : Exchanged s i p e t) (he : eventTimeout e = some tmo) : s.tmo = some tmo := by
  cases h with
  | receiveByte _ _ htmo => exact htmo.trans he
  | transmitByte _ _ htmo _ => exact htmo.trans he
  | _ => cases he

/-- The event that a step appends carries the value of TMO, if it carries a timeout. -/
theorem Stepped.tmo_of_eventTimeout {s t : State} {p : Phase} {e : Event} {tmo : Timeout} (h : Stepped s p t)
    (htrace : t.trace = s.trace ++ [e]) (he : eventTimeout e = some tmo) : s.tmo = some tmo := by
  cases h with
  | exchanged _ _ hrun =>
    have hevent := hrun.trace_eq.symm.trans htrace
    simp only [List.append_cancel_left_eq, List.cons.injEq, and_true] at hevent
    exact hrun.tmo_of_eventTimeout (hevent ▸ he)
  | _ => simp at htrace

/-- COMPLETE's is the only exchange that writes TMO. -/
theorem Exchanged.tmo_eq {s t : State} {i : Instr} {p : Phase} {e : Event} (h : Exchanged s i p e t) (hp : p ≠ .complete) :
    t.tmo = s.tmo := by
  cases h with
  | readStatus hd => obtain ⟨_, _, _, _, _, _, rfl⟩ := hd.statusWrites.any; rfl
  | @receiveByte answer => cases answer <;> rfl
  | @transmitByte ok => cases ok <;> rfl
  | releaseBus => rfl
  | onDone => rfl
  | provide hnext => obtain ⟨_, _, rfl⟩ := txNext_frame hnext; rfl
  | complete => exact absurd rfl hp

/-- Between acceptance and COMPLETE a step keeps TMO, unless it is a reset (R32). -/
theorem Stepped.tmo_eq {s t : State} {p : Phase} (h : Stepped s p t) (hidle : p ≠ .idle) (hcomplete : p ≠ .complete)
    (hreset : s.inbox.head? ≠ some .reset) : t.tmo = s.tmo := by
  cases h with
  | receiveAccepted | transmitAccepted | hostWrite => exact absurd rfl hidle
  | busy => rfl
  | exchanged _ _ hrun => exact hrun.tmo_eq hcomplete
  | reset hin => exact absurd (by simp [hin]) hreset

/-- Settles O42: only an exchange emits, with TMO as it stands, and only acceptance, COMPLETE and reset write TMO. -/
theorem timeoutPassedUnchanged : Obligations.TimeoutPassedUnchanged := by
  intro s t p hstep hp
  obtain ⟨q, hq, h⟩ := step_stepped hstep
  obtain rfl := atPhase_unique hp hq
  exact ⟨fun _ _ _ htrace => h.tmo_of_eventTimeout htrace rfl, fun _ _ _ _ htrace => h.tmo_of_eventTimeout htrace rfl, h.tmo_eq⟩

end Sys2Proof.Machine
end

section
/-! Under the invariant every answer of the outstanding event has a meaning (spec/43_interface.md R219, R220, spec/10_state.md R34,
spec/20_memory.md R57). -/

namespace Sys2Proof.Machine

/-- The instruction is one that an answer to the event of the phase decodes to (10_state.md R23, 30_encoding.md R72). -/
inductive AnswersPhase : Phase → Instr → Prop
  | readStatus {p evs} (hset : expectedAt p = some evs) (v : Byte) : AnswersPhase p (.readStatus v)
  | receiveByte (answer : Option Byte) : AnswersPhase .rxXfer (.receiveByte answer)
  | transmitByte (ok : Bool) : AnswersPhase .txXfer (.transmitByte ok)
  | releaseBus : AnswersPhase .finRelease .releaseBus
  | onDone : AnswersPhase .finDone .onDone
  | provide (src : List Byte) (c len : Nat) : AnswersPhase .txProvide (.provide src c len)
  | complete : AnswersPhase .complete .complete

/-- What an answer to a phase's event decodes to. -/
theorem answersPhase_of_decodeEvt {p : Phase} {code : BitVec 4} {a : Answer} {i : Instr} (hcode : phaseEvent p = some code)
    (hd : decodeEvt code a = .ok i) : AnswersPhase p i := by
  cases p <;> cases hcode <;> cases a <;> cases hd
  case rxCheck | rxVerify | txCheck | txVerify => exact .readStatus rfl _
  case rxXfer => exact .receiveByte _
  case txXfer => exact .transmitByte _
  case finRelease => exact .releaseBus
  case finDone => exact .onDone
  case txProvide => exact .provide _ _ _
  case complete => exact .complete

/-- The registers of a phase that reads the status are those its action on accept reads (R34), with POS below CAP at RX_VERIFY (R57). -/
theorem PhaseInv.onAccept_next {p : Phase} {evs : List StatusEvent} {s : State} (h : PhaseInv p s)
    (hset : expectedAt p = some evs) : ∃ t, onAccept p s = .next t := by
  cases p with
  | rxCheck =>
    obtain ⟨⟨-, -, -, -, cap, hcap, -⟩, -⟩ := h
    exact ⟨_, acceptRxCheck_of hcap⟩
  | rxVerify =>
    obtain ⟨⟨-, -, -, ⟨buf, hbuf⟩, -⟩, -, ⟨b, hlatch⟩, -, pos, cap, ⟨hpos, hcap, -⟩, hlt⟩ := h
    exact ⟨_, (acceptRxVerify_stores hbuf hpos hcap hlatch hlt).trans (rxNext_of rfl hcap)⟩
  | txCheck => exact ⟨_, rfl⟩
  | txVerify =>
    obtain ⟨-, -, -, pos, eff, ⟨hpos, heff, -⟩, -⟩ := h
    exact ⟨_, (acceptTxVerify_advances hpos).trans (txNext_of rfl heff)⟩
  | _ => cases hset

/-- Every status has a meaning where one is read: accepted or rejected (40_status_decode.md R101). -/
theorem execReadStatus_progress {p : Phase} {evs : List StatusEvent} {s : State} (hp : AtPhase p s) (hinv : PhaseInv p s)
    (hset : expectedAt p = some evs) (v : Byte) : ∃ t, exec (.readStatus v) s = .next t := by
  by_cases hev : decode8 v ∈ evs
  · rw [execReadStatus_accepted hp hset hev]
    exact (hinv.emit _).onAccept_next hset
  · exact ⟨_, execReadStatus_rejected hp hset hev⟩

/-- KIND holds a value at FIN_RELEASE (R34). -/
theorem PhaseInv.kind_of_finRelease {s : State} (h : PhaseInv .finRelease s) : ∃ kind, s.kind = some kind := by
  obtain ⟨-, _, -, ⟨⟨hkind, -⟩, -⟩ | ⟨⟨hkind, -⟩, -⟩⟩ := h <;> exact ⟨_, hkind⟩

/-- TX_XFER finds every register it reads, and a byte of the source at POS (R34, R57). -/
theorem PhaseInv.txXfer_operands {s : State} (h : PhaseInv .txXfer s) : ∃ pos eff tmo d,
    s.pos = some pos ∧ s.eff = some eff ∧ s.tmo = some tmo ∧ readByte s.txsrc pos = some d := by
  obtain ⟨⟨-, -, -, tmo, htmo⟩, -, -, pos, eff, ⟨hpos, heff, -, c, -, hle, -, hbytes⟩, hlt⟩ := h
  obtain ⟨d, hbyte⟩ := hbytes pos (hlt.trans_le hle)
  exact ⟨pos, eff, tmo, d, hpos, heff, htmo, hbyte⟩

/-- Where the registers are those of the phase, every answer to its event leads to a next state. -/
theorem AnswersPhase.exec_next {p : Phase} {i : Instr} {s : State} (h : AnswersPhase p i) (hp : AtPhase p s)
    (hinv : PhaseInv p s) : ∃ t, exec i s = .next t := by
  cases h with
  | readStatus hset v => exact execReadStatus_progress hp hinv hset v
  | receiveByte answer =>
    obtain ⟨⟨-, -, ⟨tmo, htmo⟩, -⟩, -, -, -, pos, cap, ⟨hpos, hcap, -⟩, -⟩ := hinv
    exact ⟨_, execReceiveByte_at hp hpos hcap htmo answer⟩
  | transmitByte ok =>
    obtain ⟨pos, eff, tmo, d, hpos, heff, htmo, hbyte⟩ := hinv.txXfer_operands
    exact ⟨_, execTransmitByte_at hp hpos heff htmo hbyte ok⟩
  | releaseBus =>
    obtain ⟨kind, hkind⟩ := hinv.kind_of_finRelease
    exact ⟨_, execReleaseBus_at hp hkind⟩
  | onDone =>
    obtain ⟨-, _, -, ⟨-, -, -, ⟨buf, hbuf⟩, -⟩, pos, cap, ⟨hpos, -⟩, -⟩ := hinv
    exact ⟨_, execOnDone_at hp hbuf hpos⟩
  | provide src c len => exact ⟨_, (execProvide_at hp src c len).trans (txNext_of rfl rfl)⟩
  | complete =>
    obtain ⟨r, hresult, -⟩ := hinv
    exact ⟨_, execComplete_at hp hresult⟩

/-- Settles O46: an answer decodes to an instruction of its phase, and the phase holds what that instruction reads. -/
theorem everyAnswerHasAMeaning : Obligations.EveryAnswerHasAMeaning := by
  refine ⟨fun s p code a i hinv hp hcode hd _ => ?_, fun s hinv hp hin => ?_⟩
  · exact (answersPhase_of_decodeEvt hcode hd).exec_next hp (hinv.phaseInv hp)
  · obtain ⟨r, hresult, -⟩ := hinv.phaseInv hp
    obtain ⟨-, -, hsilent⟩ := stepRunsDecodedInstruction
    exact ⟨_, (hsilent s hp hin).trans (execComplete_at hp hresult), rfl⟩

end Sys2Proof.Machine
end

section
/-! Aborts: the class that an invocation's events show, silence, and commands that are turned away (spec/60_exceptions.md R241 to R246,
R248, R259, R260). -/

namespace Sys2Proof.Machine

/-! ## The class of an ending -/

/-- The result reported last does not depend on the events before. -/
theorem reportedResult_append {tail : List Event} {r : Bool} (begun : List Event) (h : reportedResult tail = some r) :
    reportedResult (begun ++ tail) = some r := by
  cases hlast : tail.getLast? with
  | none => simp [reportedResult, hlast] at h
  | some e => simpa [reportedResult, List.getLast?_append, hlast] using h

/-- Whatever came before, an ending that reports 1 is a success (R246, class 0). -/
theorem abortClassOf_append_success {tail : List Event} (begun : List Event) (hresult : reportedResult tail = some true) :
    abortClassOf (begun ++ tail) = some .success := by
  simp [abortClassOf, reportedResult_append begun hresult]

/-- Whatever came before, an ending that reports 0 with a failed byte is a timeout (R244). -/
theorem abortClassOf_append_hwTimeout {tail : List Event} (begun : List Event) (hresult : reportedResult tail = some false)
    (hfailed : tail.any failedByte = true) : abortClassOf (begun ++ tail) = some .hwTimeout := by
  simp only [abortClassOf, reportedResult_append begun hresult, List.any_append, hfailed, Bool.or_true, if_true]

/-- An ending that reports 0 after a bus release is a protocol violation, if no byte failed before it or in it (R243). -/
theorem abortClassOf_append_protocolViolation {begun tail : List Event} (hbegun : begun.any failedByte = false)
    (hresult : reportedResult tail = some false) (hfailed : tail.any failedByte = false)
    (hrelease : tail.contains .releaseBus = true) : abortClassOf (begun ++ tail) = some .protocolViolation := by
  have hcontains : (begun ++ tail).contains .releaseBus = true := by
    rw [List.contains_append, hrelease, Bool.or_true]
  simp only [abortClassOf, reportedResult_append begun hresult, List.any_append, hbegun, hfailed, hcontains, Bool.or_false,
    Bool.false_eq_true, if_false, if_true]

/-- Every byte of a round was received. -/
theorem rxRounds_any_failedByte (cap : Nat) (tmo : Timeout) (i : Nat) (rounds : List (Byte × Byte)) :
    (rxRounds cap tmo i rounds).any failedByte = false := by
  induction rounds generalizing i with
  | nil => rfl
  | cons r rest ih => exact ih (i + 1)

/-- Every byte of a round was sent. -/
theorem txRounds_any_failedByte (eff : Nat) (tmo : Timeout) (i : Nat) (bytes : List Byte) :
    (txRounds eff tmo i bytes).any failedByte = false := by
  induction bytes generalizing i with
  | nil => rfl
  | cons d rest ih => exact ih (i + 1)

theorem rxBegun_any_failedByte (cap : Nat) (tmo : Timeout) (rounds : List (Byte × Byte)) :
    (rxBegun cap tmo rounds).any failedByte = false :=
  rxRounds_any_failedByte cap tmo 0 rounds

theorem txBegun_any_failedByte (src : List Byte) (c len : Nat) (tmo : Timeout) (k : Nat) :
    (txBegun src c len tmo k).any failedByte = false :=
  txRounds_any_failedByte (effLength len c) tmo 0 (src.take k)

/-- Settles O54: the rounds before an ending hold no failed byte, so the ending alone decides the class. -/
theorem abortClassOfEveryEnding : Obligations.AbortClassOfEveryEnding := by
  refine ⟨fun _ => rfl, fun cap tmo buf n rounds rest => ⟨?_, ?_, ?_⟩, fun src c len tmo k rest => ⟨?_, ?_, ?_⟩⟩
  · rintro rfl
    exact abortClassOf_append_success _ rfl
  · rintro ack rfl
    exact abortClassOf_append_hwTimeout _ rfl rfl
  · rintro ack b u rfl
    exact abortClassOf_append_protocolViolation (rxBegun_any_failedByte cap tmo rounds) rfl rfl rfl
  · rintro rfl
    exact abortClassOf_append_success _ rfl
  · rintro d ack rfl
    exact abortClassOf_append_hwTimeout _ rfl rfl
  · rintro d ack u rfl
    exact abortClassOf_append_protocolViolation (txBegun_any_failedByte src c len tmo k) rfl rfl rfl

/-! ## Silence -/

theorem fetch_silent {p : Phase} {s : State} (hp : AtPhase p s) (hin : s.inbox = []) : fetch s = fetchSilent p s := by
  simp [fetch_atPhase hp, fetchAt, hin]

theorem fetchSilent_stuck {p : Phase} (hidle : p ≠ .idle) (hcomplete : p ≠ .complete) (s : State) :
    fetchSilent p s = .fault .stuck := by
  unfold fetchSilent
  split
  · exact absurd rfl hcomplete
  · exact absurd rfl hidle
  · rfl

theorem step_of_fetch_fault {s : State} {f : Fault} (h : fetch s = .fault f) : step s = .fault f := by
  simp [step, h]

/-- Settles O10: with an empty inbox the phase alone decides what is fetched. -/
theorem silenceEndsOrSticks : Obligations.SilenceEndsOrSticks := by
  intro s p hp hin
  have hfetch := fetch_silent hp hin
  refine ⟨fun hidle => ?_, fun hidle hcomplete => ?_⟩
  · subst hidle
    exact step_of_fetch_fault hfetch
  · exact step_of_fetch_fault (hfetch.trans (fetchSilent_stuck hidle hcomplete s))

/-! ## Commands away from IDLE -/

/-- Either command is refused BUSY_COMMAND away from IDLE (R259). -/
theorem exec_decodeCmd_busy {p : Phase} {s : State} (hp : AtPhase p s) (hbusy : p ≠ .idle) (w : CmdWord) :
    exec (decodeCmd w) s = .next (refuseBusy s) := by
  unfold decodeCmd
  split <;> exact takeCommand_busy hp hbusy _

/-- Settles O14: the step takes the command from the inbox, and the command is refused. -/
theorem busyCommandTurnedAway : Obligations.BusyCommandTurnedAway := by
  intro s p w rest hp hbusy hin hwf
  rw [step_command hp hin hwf]
  exact exec_decodeCmd_busy (s := { s with inbox := rest }) hp hbusy w

end Sys2Proof.Machine
end

section
/-! Reset (spec/70_reset_and_hazards.md R270, R271): the state it leads to, and that it cuts an invocation at any phase. -/

namespace Sys2Proof.Machine

/-! ## The state after reset -/

theorem reset_cleared : Cleared State.reset := ⟨clearRegisters_cleared State.reset, rfl, rfl⟩

/-- Settles O1: the state after reset is one that `clearRegisters` leaves alone. -/
theorem resetIsIdleAndCleared : Obligations.ResetIsIdleAndCleared := by
  obtain ⟨hregs, -⟩ := reset_cleared
  exact ⟨rfl, hregs, rfl⟩

/-- Settles O43: IDLE holds no register, and no memory has a cell. -/
theorem resetMeetsInvariant : Obligations.ResetMeetsInvariant := ⟨reset_mem_wf, rfl, .idle, rfl, reset_cleared⟩

/-- Settles O47: the machine is at IDLE only, and no invocation has an event. -/
theorem resetMeetsTraceInvariant : Obligations.ResetMeetsTraceInvariant := by
  refine ⟨resetMeetsInvariant, Nat.le_refl 0, fun p hp => ?_⟩
  obtain rfl : Phase.idle = p := atPhase_unique (s := State.reset) rfl hp
  exact .inl rfl

/-! ## A reset that arrives -/

/-- A reset at the head of the inbox is taken at every phase (R271). -/
theorem step_reset {s : State} {p : Phase} {rest : List Input} (hp : AtPhase p s) (hin : s.inbox = .reset :: rest) :
    step s = .next (applyReset { s with inbox := rest }) := by
  simp [step, fetch_atPhase hp, fetchAt, hin]

/-- A host write at the head of the inbox is done at IDLE (20_memory.md R64). -/
theorem step_hostWrite {s : State} {addr : Nat} {v : Byte} {rest : List Input} (hp : AtPhase .idle s)
    (hin : s.inbox = .hostWrite addr v :: rest) : step s = .next { s with inbox := rest, mem := writeByte s.mem addr v } := by
  simp [step, fetch_hostWrite hp hin, fetchHostWrite]

/-- Settles O2: a reset is `clearRegisters`, which writes the registers and the regions only, with the mark moved. -/
theorem resetAbandonsInvocation : Obligations.ResetAbandonsInvocation := by
  intro s p rest hp hin
  have hregs : RegistersCleared (applyReset { s with inbox := rest }) := clearRegisters_cleared { s with inbox := rest }
  exact ⟨_, step_reset hp hin, rfl, hregs, rfl, rfl, rfl, rfl, rfl, rfl, rfl, rfl⟩

end Sys2Proof.Machine
end

section
/-! The inversion lemmas of dispatch and exchange have converses: at its phase, whatever `Dispatched` or `Exchanged` names is the next
state. -/

namespace Sys2Proof.Machine

/-- The converse of `dispatchStatus_dispatched`. -/
theorem Dispatched.dispatchStatus_eq {s t : State} {p : Phase} {ev : StatusEvent} (h : Dispatched s p ev t) (hp : AtPhase p s) :
    dispatchStatus ev s = .next t := by
  cases h with
  | rejected hset hev => exact dispatchStatus_rejected hp hset hev
  | committed hnext => exact (dispatchStatus_accepted hp rfl (by simp)).trans hnext
  | stored hev hbuf hpos hcap hlatch hlt hnext =>
    have haccept : dispatchStatus ev s = acceptRxVerify s := dispatchStatus_accepted hp rfl (by simpa using hev)
    exact haccept.trans ((acceptRxVerify_stores hbuf hpos hcap hlatch hlt).trans hnext)
  | matched => exact dispatchStatus_accepted hp rfl (by simp)
  | sent hpos hnext =>
    have haccept : dispatchStatus .dataTxAck s = acceptTxVerify s := dispatchStatus_accepted hp rfl (by simp)
    exact haccept.trans ((acceptTxVerify_advances hpos).trans hnext)

/-- A status is dispatched only where READ_STATUS is emitted (40_status_decode.md R100). -/
theorem Dispatched.expectedAt_eq {s t : State} {p : Phase} {ev : StatusEvent} (h : Dispatched s p ev t) :
    ∃ evs, expectedAt p = some evs := by
  cases h with
  | rejected hset => exact ⟨_, hset⟩
  | _ => exact ⟨_, rfl⟩

/-- The converse of `exec_exchanged`. -/
theorem Exchanged.exec_eq {s t : State} {i : Instr} {p : Phase} {e : Event} (h : Exchanged s i p e t) (hp : AtPhase p s) :
    exec i s = .next t := by
  cases h with
  | readStatus hd =>
    obtain ⟨evs, hset⟩ := hd.expectedAt_eq
    exact (execReadStatus_at hp hset _).trans (hd.dispatchStatus_eq hp)
  | receiveByte hpos hcap htmo => exact execReceiveByte_at hp hpos hcap htmo _
  | transmitByte hpos heff htmo hbyte => exact execTransmitByte_at hp hpos heff htmo hbyte _
  | releaseBus hkind => exact execReleaseBus_at hp hkind
  | onDone hbuf hpos => exact execOnDone_at hp hbuf hpos
  | provide hnext => exact (execProvide_at hp _ _ _).trans hnext
  | complete hresult => exact execComplete_at hp hresult

end Sys2Proof.Machine
end

section
/-! Independent invocations (spec/70_reset_and_hazards.md R272): no step reads the trace, its mark or the record of refusals, so a run
with another history takes the same steps. -/

namespace Sys2Proof.Machine

/-- The state with another history: another trace, record of refusals and mark. -/
def withHistory (trace : List Event) (busy : Bool) (mark : Nat) (s : State) : State :=
  { s with trace := trace, busyRefused := busy, invStart := mark }

theorem forgetHistory_withHistory (trace : List Event) (busy : Bool) (mark : Nat) (s : State) :
    forgetHistory (withHistory trace busy mark s) = forgetHistory s := rfl

/-- The outcome `o` repeats, from a state whose trace is `trace`, what led from `s` to `t`: it answers `t` but for the history, and adds
the same events. -/
def Repeats (s t : State) (trace : List Event) (o : Outcome) : Prop :=
  ∃ events busy mark, t.trace = s.trace ++ events ∧ o = .next (withHistory (trace ++ events) busy mark t)

/-! ## The loop tests, dispatch and the exchanges -/

section
variable {s t : State} (trace : List Event) (busy : Bool) (mark : Nat)

theorem rxNext_withHistory (h : rxNext s = .next t) :
    rxNext (withHistory trace busy mark s) = .next (withHistory trace busy mark t) := by
  obtain ⟨pos, cap, hpos, hcap, ⟨hlt, rfl⟩ | ⟨hge, rfl⟩⟩ := rxNext_next h
  · rw [rxNext_of (s := withHistory trace busy mark s) hpos hcap, if_pos hlt]
    rfl
  · rw [rxNext_of (s := withHistory trace busy mark s) hpos hcap, if_neg hge]
    rfl

theorem txNext_withHistory (h : txNext s = .next t) :
    txNext (withHistory trace busy mark s) = .next (withHistory trace busy mark t) := by
  obtain ⟨pos, eff, hpos, heff, ⟨hlt, rfl⟩ | ⟨hge, rfl⟩⟩ := txNext_next h
  · rw [txNext_of (s := withHistory trace busy mark s) hpos heff, if_pos hlt]
    rfl
  · rw [txNext_of (s := withHistory trace busy mark s) hpos heff, if_neg hge]
    rfl

theorem Dispatched.withHistory {p : Phase} {ev : StatusEvent} (h : Dispatched s p ev t) :
    Dispatched (withHistory trace busy mark s) p ev (withHistory trace busy mark t) := by
  cases h with
  | rejected hset hev => exact .rejected hset hev
  | committed hnext => exact .committed (rxNext_withHistory trace busy mark hnext)
  | stored hev hbuf hpos hcap hlatch hlt hnext =>
    exact .stored hev hbuf hpos hcap hlatch hlt (rxNext_withHistory trace busy mark hnext)
  | matched => exact .matched
  | sent hpos hnext => exact .sent hpos (txNext_withHistory trace busy mark hnext)

theorem Exchanged.withHistory {i : Instr} {p : Phase} {e : Event} (h : Exchanged s i p e t) :
    Exchanged (withHistory trace busy mark s) i p e (withHistory (trace ++ [e]) busy mark t) := by
  cases h with
  | readStatus hd => exact .readStatus (hd.withHistory _ busy mark)
  | @receiveByte answer _ _ _ hpos hcap htmo => cases answer <;> exact .receiveByte hpos hcap htmo
  | @transmitByte ok _ _ _ _ hpos heff htmo hbyte => cases ok <;> exact .transmitByte hpos heff htmo hbyte
  | releaseBus hkind => exact .releaseBus hkind
  | onDone hbuf hpos => exact .onDone hbuf hpos
  | provide hnext => exact .provide (txNext_withHistory _ busy mark hnext)
  | complete hresult => exact .complete hresult

/-! ## Instructions and steps -/

/-- Acceptance sets the mark and a refusal the record, and neither emits (41_receive.md R130, 60_exceptions.md R259). -/
theorem takeCommand_repeats {accept : State → State}
    (haccept : accept (withHistory trace busy mark s) = withHistory trace busy trace.length (accept s))
    (htrace : (accept s).trace = s.trace) (h : takeCommand accept s = .next t) :
    Repeats s t trace (takeCommand accept (withHistory trace busy mark s)) := by
  obtain ⟨p, hp, ⟨rfl, rfl⟩ | ⟨hne, rfl⟩⟩ := takeCommand_next h
  · refine ⟨[], busy, trace.length, by simp [htrace], ?_⟩
    rw [takeCommand_idle (s := withHistory trace busy mark s) hp, haccept, List.append_nil]
  · refine ⟨[], true, mark, by simp, ?_⟩
    rw [takeCommand_busy (s := withHistory trace busy mark s) hp hne, List.append_nil]
    rfl

/-- An instruction that answers a state does so whatever the history, and adds the same events to it. -/
theorem exec_repeats {i : Instr} (h : exec i s = .next t) :
    Repeats s t trace (exec i (withHistory trace busy mark s)) := by
  cases i with
  | handleReceive | handleTransmit => exact takeCommand_repeats trace busy mark rfl rfl h
  | addrMatchWrite | dataRxAck | dataRxNack | addrMatchRead | dataTxAck | unexpected =>
    obtain ⟨p, hp, hd⟩ := dispatchStatus_dispatched h
    exact ⟨[], busy, mark, by simp [hd.trace_eq],
      ((hd.withHistory trace busy mark).dispatchStatus_eq hp).trans (by rw [List.append_nil])⟩
  | readStatus | receiveByte | transmitByte | releaseBus | onDone | provide | complete =>
    obtain ⟨p, e, hp, hx⟩ := exec_exchanged rfl h
    exact ⟨[e], busy, mark, hx.trace_eq, (hx.withHistory trace busy mark).exec_eq hp⟩

/-- A step that answers a state does so whatever the history, and adds the same events to it. -/
theorem step_repeats (h : step s = .next t) : Repeats s t trace (step (withHistory trace busy mark s)) := by
  obtain ⟨p, hp, ⟨rfl, hin, hx⟩ | ⟨w, rest, hin, hwf, hx⟩ | ⟨a, rest, code, i, hin, hcode, hd, hwf, hx⟩ | ⟨rest, hin, rfl⟩ |
    ⟨rfl, addr, v, rest, hin, rfl⟩⟩ := step_cases h
  · obtain ⟨-, -, hsilent⟩ := stepRunsDecodedInstruction
    rw [hsilent (withHistory trace busy mark s) hp hin]
    exact exec_repeats (i := .complete) trace busy mark hx
  · rw [step_command (s := withHistory trace busy mark s) hp hin hwf]
    exact exec_repeats trace busy mark hx
  · rw [step_answer (s := withHistory trace busy mark s) hp hin hcode hd hwf]
    exact exec_repeats trace busy mark hx
  · rw [step_reset (s := withHistory trace busy mark s) hp hin]
    exact ⟨[], busy, trace.length, (List.append_nil _).symm, by rw [List.append_nil]; rfl⟩
  · rw [step_hostWrite (s := withHistory trace busy mark s) hp hin]
    exact ⟨[], busy, mark, (List.append_nil _).symm, by rw [List.append_nil]; rfl⟩

end

/-! ## Runs -/

/-- A run that answers a state does so whatever the history, and adds the same events to it. -/
theorem core_run_repeats {s t : State} (k : Nat) (h : Sys2Proof.core.run k s = .next t) (trace : List Event) (busy : Bool)
    (mark : Nat) : Repeats s t trace (Sys2Proof.core.run k (withHistory trace busy mark s)) := by
  induction k generalizing s trace busy mark with
  | zero =>
    cases h
    exact ⟨[], busy, mark, (List.append_nil _).symm, by rw [List.append_nil]; rfl⟩
  | succ k ih =>
    obtain ⟨u, hstep, hrun⟩ := core_run_next k h
    obtain ⟨events, busy', mark', htrace, hstep'⟩ := step_repeats trace busy mark hstep
    obtain ⟨events', busy'', mark'', htrace', hrun'⟩ := ih hrun (trace ++ events) busy' mark'
    refine ⟨events ++ events', busy'', mark'', by rw [htrace', htrace, List.append_assoc], ?_⟩
    rw [← List.append_assoc, ← hrun']
    exact core_run_of_step k hstep'

/-! ## Two states at IDLE -/

/-- At IDLE the invariant fixes every register and both regions (10_state.md R34). -/
theorem HandlerInv.eq_clearRegisters {s : State} (h : HandlerInv s) (hp : AtPhase .idle s) : s = clearRegisters s := by
  obtain ⟨⟨hkind, hpos, hcap, heff, hlatch, hresult, harmed, htmo⟩, hrxbuf, htxsrc⟩ := h.phaseInv hp
  cases s
  simp_all only [AtPhase, clearRegisters]

/-- Settles O60: two such states differ in their history only, and a run repeats whatever the history. -/
theorem nothingLeaksBetweenInvocations : Obligations.NothingLeaksBetweenInvocations := by
  intro s s' hinv hinv' hp hp' hmem hparams hinbox k t hrun
  have hs' : s' = withHistory s'.trace s'.busyRefused s'.invStart s := by
    rw [hinv.eq_clearRegisters hp, hinv'.eq_clearRegisters hp']
    simp [clearRegisters, withHistory, hmem, hparams, hinbox]
  obtain ⟨events, busy, mark, htrace, hrun'⟩ := core_run_repeats k hrun s'.trace s'.busyRefused s'.invStart
  rw [← hs'] at hrun'
  exact ⟨_, events, hrun', (forgetHistory_withHistory _ busy mark t).symm, htrace, rfl⟩

end Sys2Proof.Machine
end
